-- ==== Sys2Proof/Word.lean ====
section
/-! DEFINITION. The words of the machine and how a register's bits are read as a number (spec/00_scope.md R9, R10). -/

namespace Sys2Proof

/-- A byte: 8 bits (R9). -/
abbrev Byte := BitVec 8

/-- A word of the host register map: 32 bits (spec/10_state.md R33). -/
abbrev Word := BitVec 32

/-- The number held by a register of type `U<n>` (R10). -/
abbrev uval {n : Nat} (v : BitVec n) : Int := (v.toNat : Int)

/-- The number held by a register of type `S<n>`, in two's complement (R10). -/
abbrev sval {n : Nat} (v : BitVec n) : Int := v.toInt

end Sys2Proof
end

