-- ==== Sys2Proof/Syntax.lean ====
section
/-! DEFINITION. The five instructions and the pseudo-instructions (spec/30_encoding.md R90, R91, R113). -/

namespace Sys2Proof

/-- One constructor per row of spec/opcode_table.json. No instruction has an operand field (R90). -/
inductive Instr where
  | ldcal
  | rdfrm
  | cmpt
  | cmpp
  | cmph
  deriving DecidableEq, Repr

/-- The mnemonic, as the opcode table spells it (R91, R112). -/
def Instr.mnemonic : Instr → String
  | .ldcal => "LDCAL"
  | .rdfrm => "RDFRM"
  | .cmpt => "CMPT"
  | .cmpp => "CMPP"
  | .cmph => "CMPH"

/-- All five, in the order of their opcodes (spec/46_sequencer.md R231: "The five operations are all there are"). -/
def Instr.all : List Instr := [.ldcal, .rdfrm, .cmpt, .cmpp, .cmph]

/-- The pseudo-instructions (R113). They have no encoding of their own. -/
inductive Pseudo where
  | startup
  | cycle
  | temp
  deriving DecidableEq, Repr

/-- The name of a pseudo-instruction (R113). -/
def Pseudo.mnemonic : Pseudo → String
  | .startup => "STARTUP"
  | .cycle => "CYCLE"
  | .temp => "TEMP"

/-- What a pseudo-instruction stands for (R113). -/
def Pseudo.expand : Pseudo → List Instr
  | .startup => [.ldcal]
  | .cycle => [.rdfrm, .cmpt, .cmpp, .cmph]
  | .temp => [.rdfrm, .cmpt]

end Sys2Proof
end

