-- ==== Sys2Proof/Decode.lean ====
section
/-! DEFINITION. The command byte: decoder, encoder, programs as bytes, and the assembler's line syntax
(spec/30_encoding.md R90, R91, R108, R112, R113, R114). -/

namespace Sys2Proof

/-- Why a byte is no command. -/
inductive DecodeError where
  /-- The byte is 0x00 or 0x06..0xFF (R108). -/
  | illegalCommand (op : Byte)
  deriving DecidableEq, Repr

/-- The decoder: the whole byte is the opcode (R91: `mask = 0xFF`). -/
def decode (op : Byte) : Except DecodeError Instr :=
  match op.toNat with
  | 1 => .ok .ldcal
  | 2 => .ok .rdfrm
  | 3 => .ok .cmpt
  | 4 => .ok .cmpp
  | 5 => .ok .cmph
  | _ => .error (.illegalCommand op)

/-- The encoder: an instruction's one byte (R91). -/
def encode : Instr → Byte
  | .ldcal => 0x01#8
  | .rdfrm => 0x02#8
  | .cmpt => 0x03#8
  | .cmpp => 0x04#8
  | .cmph => 0x05#8

/-- A program's bytes: its command bytes in issue order (R114). -/
def encodeProgram (p : List Instr) : List Byte := p.map encode

/-- The instructions of a program's bytes; it stops at the first byte that is no command, by name (R91, R108). -/
def decodeProgram : List Byte → Except DecodeError (List Instr)
  | [] => .ok []
  | op :: rest =>
    match decode op, decodeProgram rest with
    | .ok i, .ok is => .ok (i :: is)
    | .error e, _ => .error e
    | .ok _, .error e => .error e

/-- The instruction the decoder reads from an instruction whose bits are `w` (bit 0 the least significant bit of its one byte). -/
def decodeTableWord (nbits w : Nat) : Option Instr :=
  match decode (BitVec.ofNat 8 (w % 2 ^ nbits)) with
  | .ok i => some i
  | .error _ => none

/-! The assembler's syntax (R112): one mnemonic a line, case-insensitive, `;` starts a comment, no operand, no label, no directive.
Blanks around the mnemonic, empty lines and the pseudo-instructions by name: log 14. -/

/-- A letter in upper case. -/
def Asm.upper (c : Char) : Char :=
  if 'a'.toNat ≤ c.toNat && c.toNat ≤ 'z'.toNat then Char.ofNat (c.toNat - 32) else c

/-- Is it a blank: a space, a tab or a carriage return? -/
def Asm.isBlank (c : Char) : Bool := c == ' ' || c == '\t' || c == '\r'

/-- A line without its comment, the blanks around it, and its case (R112). -/
def Asm.normal (line : List Char) : List Char :=
  (((line.takeWhile (fun c => c != ';')).dropWhile Asm.isBlank).reverse.dropWhile Asm.isBlank).reverse.map Asm.upper

/-- The instructions of one line: none for an empty line, one for a mnemonic (R112), the expansion for a pseudo-instruction (R113);
`none` where the line is neither. -/
def Asm.line (l : List Char) : Option (List Instr) :=
  let word := Asm.normal l
  if word = [] then some []
  else
    match Instr.all.find? (fun i => i.mnemonic.toList = word) with
    | some i => some [i]
    | none =>
      match [Pseudo.startup, .cycle, .temp].find? (fun p => p.mnemonic.toList = word) with
      | some p => some p.expand
      | none => none

/-- The lines of a text. -/
def Asm.lines : List Char → List (List Char)
  | [] => [[]]
  | c :: rest =>
    match Asm.lines rest with
    | [] => [[c]]
    | l :: ls => if c = '\n' then [] :: l :: ls else (c :: l) :: ls

/-- The instructions of a text, in order; `none` where a line is no instruction (R112). -/
def Asm.program (text : List Char) : Option (List Instr) :=
  (Asm.lines text).foldr (fun l acc => match Asm.line l, acc with
    | some is, some rest => some (is ++ rest)
    | _, _ => none) (some [])

/-- A text of a program: one mnemonic a line (R112). -/
def Asm.print (p : List Instr) : List Char :=
  p.foldr (fun i acc => i.mnemonic.toList ++ '\n' :: acc) []

end Sys2Proof
end

