-- ==== Sys2Proof/Machine/Operands.lean ====
section
/-! DEFINITION. Field assembly: how the bytes of a block or a frame make the values of registers
(spec/30_encoding.md R100 to R105). -/

namespace Sys2Proof.Machine

/-- Byte `i` of a byte sequence (spec/00_scope.md R9). The decoders read only positions the sequence has. -/
def byteAt (b : List Byte) (i : Nat) : Byte := b.getD i 0

/-- `sext_N(v)` as a number (spec/00_scope.md R10). The registers do the same by their type; the statements compare the two. -/
def sext (N v : Nat) : Int := if v < 2 ^ (N - 1) then (v : Int) else (v : Int) - 2 ^ N

/-- `le_u16(lo, hi)`: low byte at the lower address (R100). -/
def leU16 (lo hi : Byte) : BitVec 16 := hi ++ lo

/-- `le_s16(lo, hi)`: the same 16 bits, held in a signed register (R101). -/
def leS16 (lo hi : Byte) : BitVec 16 := hi ++ lo

/-- `u8(b)`: an unsigned 8-bit register (R102). -/
def u8 (b : Byte) : BitVec 8 := b

/-- `s8(b)`: the same 8 bits, held in a signed register (R102). -/
def s8 (b : Byte) : BitVec 8 := b

/-- `dig_H4`: `(b3 << 4) | (b4 & 0x0F)`, sign-extended from 12 bits (R104). -/
def nibbleH4 (b3 b4 : Byte) : BitVec 16 := ((b3 ++ b4.extractLsb' 0 4 : BitVec 12)).signExtend 16

/-- `dig_H5`: `(b4 >> 4) | (b5 << 4)`, sign-extended from 12 bits (R104). -/
def nibbleH5 (b4 b5 : Byte) : BitVec 16 := ((b5 ++ b4.extractLsb' 4 4 : BitVec 12)).signExtend 16

/-- `be20(m, k, l)`: most significant byte first, the low nibble of the last byte dropped (R105). -/
def be20 (m k l : Byte) : BitVec 20 := m ++ k ++ l.extractLsb' 4 4

/-- `be16(m, l)`: most significant byte first (R105). -/
def be16 (m l : Byte) : BitVec 16 := m ++ l

end Sys2Proof.Machine
end

