-- ==== Sys2Proof/Config.lean ====
section
/-! DEFINITION. The values the spec leaves open, as constants nothing can evaluate.
Every fixed size of the hardware (spec/00_scope.md R8) stands where it is used; nothing else varies between implementations. -/

namespace Sys2Proof.Config

/-- What a host read of a register that holds no value returns, at the k-th draw
(spec/10_state.md R40, spec/93_implementation_defined.md U1: "any value"). DESIGN CHOICE, log 10. -/
opaque freeWord : Nat → Word

/-- Whether the transport's unscripted answer fails, at the k-th draw
(spec/20_memory.md R66, spec/92_eei_decisions.md O1, O2). DESIGN CHOICE, log 4. -/
opaque freeReadFails : Nat → Bool

/-- Byte i of the transport's unscripted answer, at the k-th draw (R66: "every byte value 0..255 in every position
is possible"). DESIGN CHOICE, log 4. -/
opaque freeByte : Nat → Nat → Byte

end Sys2Proof.Config
end

