-- ==== Sys2Proof/Machine/State.lean ====
section
/-! DEFINITION. The machine's state, as plain data (spec/10_state.md R20 to R42), the reasons a step can stop, and the state after reset. -/

namespace Sys2Proof.Machine

/-- The sequencing register `PHASE` (R30). It has six values; 6 and 7 never occur (spec/93_implementation_defined.md U13:
"a model's `PHASE` type has six values"). -/
inductive Phase where
  /-- 0: after reset; no calibration loaded. -/
  | nocal
  /-- 1: calibrated; no reading cycle in progress. -/
  | idle
  /-- 2: a frame has been decoded. -/
  | frame
  /-- 3: temperature compensated. -/
  | tdone
  /-- 4: pressure compensated. -/
  | pdone
  /-- 5: humidity compensated; the reading is complete. -/
  | hdone
  deriving DecidableEq, Repr

/-- The fault register `ERR`: the cause code of the most recent command (R32, spec/60_exceptions.md R253). -/
inductive ErrCode where
  /-- 0, the spec's `None`: the command completed. -/
  | noError
  /-- 1, `ReadFailed` (R250). -/
  | readFailed
  /-- 2, `SequenceError` (R251). -/
  | sequenceError
  /-- 3, `IllegalCommand` (R252). -/
  | illegalCommand
  deriving DecidableEq, Repr

/-- The coefficient file `COEF[0..17]` (R21). `digT1`, `digP1`, `digH1`, `digH3` are unsigned, the others signed;
`digH4` and `digH5` only take values -2048..2047 in a reachable state (R24, log 15). -/
structure Coefs where
  digT1 : BitVec 16
  digT2 : BitVec 16
  digT3 : BitVec 16
  digP1 : BitVec 16
  digP2 : BitVec 16
  digP3 : BitVec 16
  digP4 : BitVec 16
  digP5 : BitVec 16
  digP6 : BitVec 16
  digP7 : BitVec 16
  digP8 : BitVec 16
  digP9 : BitVec 16
  digH1 : BitVec 8
  digH2 : BitVec 16
  digH3 : BitVec 8
  digH4 : BitVec 16
  digH5 : BitVec 16
  digH6 : BitVec 8
  deriving DecidableEq, Repr

/-- What can happen at the core's host side: the host's accesses (R33) and the reset signal (spec/70_reset_and_hazards.md R280).
An index is a natural number: 34 and above are reserved (R33; log 16). -/
inductive HostAction where
  /-- The host writes a word to a register index. -/
  | write (index : Nat) (word : Word)
  /-- The host reads a register index. -/
  | read (index : Nat)
  /-- The external reset signal. -/
  | reset
  deriving DecidableEq, Repr

/-- The transport's answer to one `MemRead` (spec/20_memory.md R65, R67; spec/92_eei_decisions.md O1, O2). -/
inductive Answer where
  /-- The bytes, the lowest sensor register first. -/
  | bytes (b : List Byte)
  /-- Failure. -/
  | failure
  /-- No answer ever comes (O2: "a third answer 'never'"). -/
  | never
  deriving DecidableEq, Repr

/-- One `MemRead` as the transport sees it: a start address and a length (R65). -/
structure ReadRequest where
  addr : Byte
  len : Nat
  deriving DecidableEq, Repr

/-- Why the machine stops. No instruction's meaning answers one of these: the spec's own faults are values of `ERR`, after which the
machine goes on (spec/60_exceptions.md R262). -/
inductive Fault where
  /-- Raised by `step` when an operation waits for a read the transport never answers and no reset comes: "no further step is
  possible" (spec/20_memory.md R67, spec/93_implementation_defined.md U8, "stuck"). Safe: log 5. -/
  | transportNeverAnswers
  deriving DecidableEq, Repr

/-- Why a step has no meaning. -/
inductive Refusal where
  /-- Answered by `exec` for an instruction with no meaning yet. No arm answers it. Safe. -/
  | notModelled (mnemonic : String)
  /-- Answered by `step` when the host reads or writes a register while an operation waits for the transport: "an implementation must
  hold off the host. `refuse` if a model wants to represent it" (spec/93_implementation_defined.md U9). Safe: log 7. -/
  | hostHeldOff
  deriving DecidableEq, Repr

/-- The machine. The fields down to `err` are the whole state of the core (R20). `waiting` is a read in progress (spec/20_memory.md R67).
The rest is the model's own: the inputs the spec gives the step (R20: "parameters of the step function"), what the two ports have
shown, and a counter of free values (log 1, log 11).
Which registers hold a value is decided by `phase` (R30); a register that holds none still has bits here, which no operation and
no host read looks at (R40, log 9). -/
structure State where
  coef : Coefs
  adcP : BitVec 20
  adcT : BitVec 20
  adcH : BitVec 16
  tFine : BitVec 32
  tOut : BitVec 32
  pOut : BitVec 32
  hOut : BitVec 32
  phase : Phase
  err : ErrCode
  waiting : Bool
  host : List HostAction
  transport : List Answer
  reads : List ReadRequest
  hostData : Word
  draws : Nat
  deriving DecidableEq, Repr

/-- The bits of a coefficient file that holds no value, right after reset. DESIGN CHOICE: zeros; log 8. -/
def Coefs.zero : Coefs where
  digT1 := 0
  digT2 := 0
  digT3 := 0
  digP1 := 0
  digP2 := 0
  digP3 := 0
  digP4 := 0
  digP5 := 0
  digP6 := 0
  digP7 := 0
  digP8 := 0
  digP9 := 0
  digH1 := 0
  digH2 := 0
  digH3 := 0
  digH4 := 0
  digH5 := 0
  digH6 := 0

/-- The machine right after reset: `PHASE = 0`, `ERR = 0` (R42, R280). Every other register of the core holds no value; its bits are a
DESIGN CHOICE (zeros, log 8). The model's own fields are empty (log 11). -/
def State.reset : State where
  coef := Coefs.zero
  adcP := 0
  adcT := 0
  adcH := 0
  tFine := 0
  tOut := 0
  pOut := 0
  hOut := 0
  phase := .nocal
  err := .noError
  waiting := false
  host := []
  transport := []
  reads := []
  hostData := 0
  draws := 0

end Sys2Proof.Machine
end

