-- ==== Sys2Proof/Machine/Flags.lean ====
section
/-! DEFINITION. There are no condition codes (spec/10_state.md R31). What stands in their place: the validity conditions, which are
predicates of `PHASE` (R30, R31), and the `STATUS` word (R34). -/

namespace Sys2Proof.Machine

/-- The number `PHASE` holds (R30). -/
def Phase.code : Phase → Nat
  | .nocal => 0
  | .idle => 1
  | .frame => 2
  | .tdone => 3
  | .pdone => 4
  | .hdone => 5

/-- The number `ERR` holds (R32, spec/60_exceptions.md R253). -/
def ErrCode.code : ErrCode → Nat
  | .noError => 0
  | .readFailed => 1
  | .sequenceError => 2
  | .illegalCommand => 3

/-- `CAL_VALID`: the coefficient file holds a value (R31). -/
def State.calValid (s : State) : Bool := decide (1 ≤ s.phase.code)

/-- `RAW_VALID`: `ADC_P`, `ADC_T`, `ADC_H` hold values (R31). -/
def State.rawValid (s : State) : Bool := decide (2 ≤ s.phase.code)

/-- `T_VALID`, which is also `TF_VALID`: `T_OUT` and `T_FINE` hold values (R31). -/
def State.tValid (s : State) : Bool := decide (3 ≤ s.phase.code)

/-- `P_VALID`: `P_OUT` holds a value (R31). -/
def State.pValid (s : State) : Bool := decide (4 ≤ s.phase.code)

/-- `H_VALID`, which is also `READY`: `H_OUT` holds a value and the reading is complete (R31). -/
def State.hValid (s : State) : Bool := decide (s.phase.code = 5)

/-- The `STATUS` word: bits [2:0] `PHASE`, bit 3 zero, bits [5:4] `ERR`, bits [31:6] zero, so `PHASE + 16 * ERR` (R34). -/
def State.status (s : State) : Word := BitVec.ofNat 32 (s.phase.code + 16 * s.err.code)

end Sys2Proof.Machine
end

