-- ==== Sys2Proof/Machine/Ops.lean ====
section
/-! DEFINITION. The named operations every instruction is made of: register writes, the end of a command, taking a fault, `MemRead`,
the host register map, reset, and the arrival of the next host action. -/

namespace Sys2Proof.Machine

/-! ### Register writes -/

/-- All 18 coefficients, together (spec/10_state.md R22). -/
def State.setCoef (c : Coefs) (s : State) : State := { s with coef := c }

/-- The three raw registers, together (R25). -/
def State.setRaw (p t : BitVec 20) (h : BitVec 16) (s : State) : State := { s with adcP := p, adcT := t, adcH := h }

/-- `T_FINE <- tf` and `T_OUT <- t`, each in 32-bit two's complement (R26, R29; the values always fit: R28, spec/40_arithmetic.md R131). -/
def State.setTemp (t tf : Int) (s : State) : State := { s with tOut := BitVec.ofInt 32 t, tFine := BitVec.ofInt 32 tf }

/-- `P_OUT <- p` (R29). -/
def State.setPress (p : Int) (s : State) : State := { s with pOut := BitVec.ofInt 32 p }

/-- `H_OUT <- h` (R29). -/
def State.setHum (h : Int) (s : State) : State := { s with hOut := BitVec.ofInt 32 h }

/-! ### How a command ends -/

/-- Completion: `PHASE <- p`, `ERR <- 0`, the last acts of an operation (R30, R32). -/
def State.finish (p : Phase) (s : State) : State := { s with phase := p, err := .noError }

/-- TAKING A FAULT, the one shared operation: `ERR` is written with the cause code and the step ends. Nothing is saved, no vector is
computed, no mode changes (spec/60_exceptions.md R262). There is no return from it (R265): the next command simply runs. -/
def State.raise (e : ErrCode) (s : State) : State := { s with err := e }

/-- The end of the reading cycle in progress: `PHASE <- 1`, so that the raw registers, `T_FINE` and the results hold no value
(spec/42_raw_frame_decode.md R170). -/
def State.endCycle (s : State) : State := { s with phase := .idle }

/-- The operation waits for a read the transport has not answered; `PHASE` and `ERR` are not written
(spec/20_memory.md R67; log 5, log 6). -/
def State.wait (s : State) : State := { s with waiting := true }

/-- Which phases admit a command: `admit(c)` (spec/46_sequencer.md R230). -/
def admits : Instr → Phase → Bool
  | .ldcal, p => decide (p = .nocal)
  | .rdfrm, p => decide (p ≠ .nocal)
  | .cmpt, p => decide (p = .frame)
  | .cmpp, p => decide (p = .tdone)
  | .cmph, p => decide (p = .pdone)

/-- `require c else raise SequenceError`, then the operation's body (R230, spec/60_exceptions.md R251). -/
def State.require (c : Bool) (body : State → State) (s : State) : State :=
  if c then body s else s.raise .sequenceError

/-! ### `MemRead` -/

/-- An unscripted answer to a read of `n` bytes, at draw `k`: failure, or exactly `n` bytes, both free
(spec/20_memory.md R66; log 4). It always answers (spec/92_eei_decisions.md O2). -/
def freeAnswer (k n : Nat) : Answer :=
  if Config.freeReadFails k then .failure else .bytes (List.ofFn (fun i : Fin n => Config.freeByte k i))

/-- The transport's answer to a read of `n` bytes: the next scripted one, else a free one. -/
def State.nextAnswer (n : Nat) (s : State) : Answer :=
  match s.transport with
  | a :: _ => a
  | [] => freeAnswer s.draws n

/-- The state after the core has issued `MemRead(addr, n)`: the request is on the port's record, its answer is used up. -/
def State.afterRead (addr : Byte) (n : Nat) (s : State) : State :=
  { s with
    reads := s.reads ++ [⟨addr, n⟩]
    transport := s.transport.tail
    draws := if s.transport.isEmpty then s.draws + 1 else s.draws }

/-- What the core gets for a read. -/
inductive ReadOutcome where
  /-- The bytes asked for. -/
  | got (b : List Byte)
  /-- The read failed. -/
  | failed
  /-- No answer. -/
  | silent
  deriving DecidableEq, Repr

/-- An answer as the core takes it: bytes only when there are exactly as many as asked for; "a short answer counts as failure"
(R65), and so does a long one (log 12). -/
def Answer.outcome (n : Nat) : Answer → ReadOutcome
  | .bytes b => if b.length = n then .got b else .failed
  | .failure => .failed
  | .never => .silent

/-- `MemRead(addr, n)` (R65): what the core gets, and the state after. -/
def memRead (addr : Byte) (n : Nat) (s : State) : ReadOutcome × State :=
  ((s.nextAnswer n).outcome n, s.afterRead addr n)

/-- The answer a transport gives that holds the sensor's registers in `image`: the contents of `addr`, `addr+1`, …, `addr+n-1`
in that order (R61, R65). One oracle among all (R66). -/
def sensorAnswer (image : Byte → Byte) (addr : Byte) (n : Nat) : Answer :=
  .bytes ((List.range n).map (fun i => image (addr + BitVec.ofNat 8 i)))

/-! ### The host register map -/

/-- `COEF[i]` as a 32-bit word: zero-extended where unsigned, sign-extended where signed (spec/10_state.md R21, R33). -/
def Coefs.word (c : Coefs) (i : Nat) : Word :=
  match i with
  | 0 => c.digT1.zeroExtend 32
  | 1 => c.digT2.signExtend 32
  | 2 => c.digT3.signExtend 32
  | 3 => c.digP1.zeroExtend 32
  | 4 => c.digP2.signExtend 32
  | 5 => c.digP3.signExtend 32
  | 6 => c.digP4.signExtend 32
  | 7 => c.digP5.signExtend 32
  | 8 => c.digP6.signExtend 32
  | 9 => c.digP7.signExtend 32
  | 10 => c.digP8.signExtend 32
  | 11 => c.digP9.signExtend 32
  | 12 => c.digH1.zeroExtend 32
  | 13 => c.digH2.signExtend 32
  | 14 => c.digH3.zeroExtend 32
  | 15 => c.digH4.signExtend 32
  | 16 => c.digH5.signExtend 32
  | 17 => c.digH6.signExtend 32
  | _ => 0

/-- What a host read of an index returns, where the spec fixes it: the table of R33. `none` is a register that holds no value (R40). -/
def State.hostWord (s : State) (index : Nat) : Option Word :=
  match index with
  | 0 => some 0
  | 1 => some s.status
  | 2 => if s.tValid then some s.tOut else none
  | 3 => if s.pValid then some s.pOut else none
  | 4 => if s.hValid then some s.hOut else none
  | 5 => if s.tValid then some s.tFine else none
  | k => if 16 ≤ k ∧ k ≤ 33 then (if s.calValid then some (s.coef.word (k - 16)) else none) else some 0

/-- A host read: the word goes to the host; the core's registers are untouched (R33). A register that holds no value gives a free word,
a fresh one each time (R40; log 10). -/
def State.hostRead (index : Nat) (s : State) : State :=
  match s.hostWord index with
  | some w => { s with hostData := w }
  | none => { s with hostData := Config.freeWord s.draws, draws := s.draws + 1 }

/-- The command byte of a word written to `CMD`: bits [7:0], the others ignored (R33). -/
def cmdByte (w : Word) : Byte := w.setWidth 8

/-- The word a host writes to issue a command byte. -/
def cmdWord (op : Byte) : Word := op.setWidth 32

/-- The host actions that issue a program's bytes in order (spec/46_sequencer.md R244, spec/30_encoding.md R114). -/
def hostProgram (p : List Byte) : List HostAction := p.map (fun op => .write 0 (cmdWord op))

/-! ### Reset, and the next host action -/

/-- The effect of the reset signal: `PHASE <- 0`, `ERR <- 0`, and an operation that was waiting is abandoned
(spec/70_reset_and_hazards.md R280, R281). Every other register holds no value from here on; its bits are kept, not zeroed (log 9). -/
def State.resetCore (s : State) : State := { s with phase := .nocal, err := .noError, waiting := false }

/-- The state once the next host action has been taken from the queue. -/
def State.popHost (s : State) : State := { s with host := s.host.tail }

/-- What the next host action asks of the core. -/
inductive Fetch where
  /-- Nothing to execute: the state after. -/
  | done (t : State)
  /-- A command byte, and the state in which it executes. -/
  | command (op : Byte) (t : State)
  /-- The machine is stuck. -/
  | stuck (f : Fault)
  /-- The action cannot happen now. -/
  | held (r : Refusal)
  deriving DecidableEq, Repr

/-- Take the next host action. With none pending the core holds its registers (spec/60_exceptions.md R274; log 3). A write to `CMD` is a
command; a write to any other index changes nothing; a read returns a word (spec/10_state.md R33). While an operation waits only
reset can come (spec/20_memory.md R67, spec/93_implementation_defined.md U8, U9; log 5, log 7). -/
def State.fetch (s : State) : Fetch :=
  if s.waiting then
    match s.host with
    | [] => .stuck .transportNeverAnswers
    | .reset :: _ => .done s.popHost.resetCore
    | .write _ _ :: _ => .held .hostHeldOff
    | .read _ :: _ => .held .hostHeldOff
  else
    match s.host with
    | [] => .done s
    | .reset :: _ => .done s.popHost.resetCore
    | .read index :: _ => .done (s.popHost.hostRead index)
    | .write index w :: _ => if index = 0 then .command (cmdByte w) s.popHost else .done s.popHost

/-- The effect of a byte that is no command: `raise IllegalCommand`, and nothing else (spec/60_exceptions.md R252). -/
def takeIllegal (s : State) : State := s.raise .illegalCommand

end Sys2Proof.Machine
end

