-- ==== Sys2Proof/Machine/Calibration.lean ====
section
/-! DEFINITION. The calibration decoder and `LDCAL` (spec/41_calibration_decode.md R140 to R160). -/

namespace Sys2Proof.Machine

/-- Where block A starts (spec/20_memory.md R61, R64). -/
def blockAAddr : Byte := 0x88#8

/-- How long block A is (R64). -/
def blockALen : Nat := 26

/-- Where block B starts (R64). -/
def blockBAddr : Byte := 0xE1#8

/-- How long block B is (R64). -/
def blockBLen : Nat := 8

/-- `caldec(A, B)` (R141), field by field R142 to R159. -/
def caldec (A B : List Byte) : Coefs where
  digT1 := leU16 (byteAt A 0) (byteAt A 1)
  digT2 := leS16 (byteAt A 2) (byteAt A 3)
  digT3 := leS16 (byteAt A 4) (byteAt A 5)
  digP1 := leU16 (byteAt A 6) (byteAt A 7)
  digP2 := leS16 (byteAt A 8) (byteAt A 9)
  digP3 := leS16 (byteAt A 10) (byteAt A 11)
  digP4 := leS16 (byteAt A 12) (byteAt A 13)
  digP5 := leS16 (byteAt A 14) (byteAt A 15)
  digP6 := leS16 (byteAt A 16) (byteAt A 17)
  digP7 := leS16 (byteAt A 18) (byteAt A 19)
  digP8 := leS16 (byteAt A 20) (byteAt A 21)
  digP9 := leS16 (byteAt A 22) (byteAt A 23)
  digH1 := u8 (byteAt A 25)
  digH2 := leS16 (byteAt B 0) (byteAt B 1)
  digH3 := u8 (byteAt B 2)
  digH4 := nibbleH4 (byteAt B 3) (byteAt B 4)
  digH5 := nibbleH5 (byteAt B 4) (byteAt B 5)
  digH6 := s8 (byteAt B 6)

/-- The low byte of a 16-bit coefficient: `v mod 256` (R160). -/
def loByte (v : BitVec 16) : Byte := v.extractLsb' 0 8

/-- The high byte of a 16-bit coefficient (R160). -/
def hiByte (v : BitVec 16) : Byte := v.extractLsb' 8 8

/-- Block A of `calenc(c)` (R160). -/
def calencA (c : Coefs) : List Byte :=
  [loByte c.digT1, hiByte c.digT1, loByte c.digT2, hiByte c.digT2, loByte c.digT3, hiByte c.digT3] ++
  [loByte c.digP1, hiByte c.digP1, loByte c.digP2, hiByte c.digP2, loByte c.digP3, hiByte c.digP3] ++
  [loByte c.digP4, hiByte c.digP4, loByte c.digP5, hiByte c.digP5, loByte c.digP6, hiByte c.digP6] ++
  [loByte c.digP7, hiByte c.digP7, loByte c.digP8, hiByte c.digP8, loByte c.digP9, hiByte c.digP9] ++
  [0, c.digH1]

/-- Block B of `calenc(c)` (R160): bits 11..4 of `dig_H4`, the two low nibbles, bits 11..4 of `dig_H5`. -/
def calencB (c : Coefs) : List Byte :=
  [loByte c.digH2, hiByte c.digH2, c.digH3, c.digH4.extractLsb' 4 8,
   (c.digH5.extractLsb' 0 4 ++ c.digH4.extractLsb' 0 4 : BitVec 8), c.digH5.extractLsb' 4 8, c.digH6, 0]

/-- The body of an admitted `LDCAL` (R140): block A, then block B only if the first read succeeded, then all the coefficients at once. -/
def ldcalBody (s : State) : State :=
  match memRead blockAAddr blockALen s with
  | (.silent, s₁) => s₁.wait
  | (.failed, s₁) => s₁.raise .readFailed
  | (.got A, s₁) =>
    match memRead blockBAddr blockBLen s₁ with
    | (.silent, s₂) => s₂.wait
    | (.failed, s₂) => s₂.raise .readFailed
    | (.got B, s₂) => (s₂.setCoef (caldec A B)).finish .idle

/-- `LDCAL` (R140). -/
def execLdcal (s : State) : Host.Outcome State Fault Refusal :=
  .next (s.require (admits .ldcal s.phase) ldcalBody)

end Sys2Proof.Machine
end

