-- ==== Sys2Proof/Machine/Mac.lean ====
section
/-! DEFINITION. The fixed-point MAC unit: the primitives of the three pipelines, over exact integers
(spec/40_arithmetic.md R120 to R128). Addition, subtraction and multiplication are those of `Int` (R121, R122). -/

namespace Sys2Proof.Machine

/-- `asr(a, n) = floor(a / 2^n)`: `Int` division by a positive number rounds down (R123). -/
def asr (a : Int) (n : Nat) : Int := a / 2 ^ n

/-- `shl(a, n) = a * 2^n`, for any sign (R124). -/
def shl (a : Int) (n : Nat) : Int := a * 2 ^ n

/-- `tdiv(a, b)`: the quotient rounded toward zero (R125). No rule reads it at `b = 0`, where the total function is 0
(spec/93_implementation_defined.md U11; log 13). -/
def tdiv (a b : Int) : Int := Int.tdiv a b

/-- `clamp(lo, hi, a)`: saturation to a closed range (R126). -/
def clamp (lo hi a : Int) : Int := if a < lo then lo else if hi < a then hi else a

/-- `wrapU32(a) = a mod 2^32`, in 0..2^32-1 (R127). -/
def wrapU32 (a : Int) : Int := a % 2 ^ 32

end Sys2Proof.Machine
end

