-- ==== Sys2Proof/Machine/Humidity.lean ====
section
/-! DEFINITION. Humidity compensation and `CMPH` (spec/45_humidity.md R210 to R216), stage by stage. -/

namespace Sys2Proof.Machine

/-- Stage 1, `v` (R211). -/
def humV (tf : Int) : Int := tf - 76800

/-- Stage 1, the raw term `A` (R211). -/
def humA (adcH H4 H5 tf : Int) : Int := asr (shl adcH 14 - shl H4 20 - H5 * humV tf + 16384) 15

/-- Stage 2, the gain `B` (R212). -/
def humB (H2 H3 H6 tf : Int) : Int :=
  let b1 := asr (humV tf * H6) 10
  let b2 := asr (humV tf * H3) 11 + 32768
  let b3 := asr (b1 * b2) 10 + 2097152
  asr (b3 * H2 + 8192) 14

/-- Stage 2, the `dig_H1` term: `x2` from `x` (R212). -/
def humX2 (H1 x : Int) : Int :=
  let y := asr x 15
  let z := asr (y * y) 7
  x - asr (z * H1) 4

/-- Stage 3, saturation and scale-down (R213). -/
def humSaturate (x2 : Int) : Int := asr (clamp 0 419430400 x2) 12

/-- `compH` (R210), total over all integers. -/
def compH (adcH H1 H2 H3 H4 H5 H6 tf : Int) : Int :=
  humSaturate (humX2 H1 (humA adcH H4 H5 tf * humB H2 H3 H6 tf))

/-- `compH` of the registers (spec/40_arithmetic.md R121). -/
def State.humOfRegs (s : State) : Int :=
  compH (uval s.adcH) (uval s.coef.digH1) (sval s.coef.digH2) (uval s.coef.digH3) (sval s.coef.digH4) (sval s.coef.digH5)
    (sval s.coef.digH6) (sval s.tFine)

/-- The body of an admitted `CMPH` (R210). -/
def cmphBody (s : State) : State := (s.setHum s.humOfRegs).finish .hdone

/-- `CMPH` (R210). -/
def execCmph (s : State) : Host.Outcome State Fault Refusal :=
  .next (s.require (admits .cmph s.phase) cmphBody)

end Sys2Proof.Machine
end

