-- ==== Sys2Proof/Machine/Pressure.lean ====
section
/-! DEFINITION. Pressure compensation and `CMPP` (spec/44_pressure.md R190 to R199), stage by stage. -/

namespace Sys2Proof.Machine

/-- Stage 1, `v1` (R191). -/
def pressV1 (tf : Int) : Int := asr tf 1 - 64000

/-- Stage 1, `q2`, the square (R191). -/
def pressQ2 (tf : Int) : Int := asr (pressV1 tf) 2 * asr (pressV1 tf) 2

/-- Stage 2, `v2c` (R192). -/
def pressV2c (P4 P5 P6 tf : Int) : Int :=
  let v2 := asr (pressQ2 tf) 11 * P6
  let v2b := v2 + shl (pressV1 tf * P5) 1
  asr v2b 2 + shl P4 16

/-- Stage 3, `v1b` (R193). -/
def pressV1b (P2 P3 tf : Int) : Int :=
  asr (asr (P3 * asr (pressQ2 tf) 13) 3 + asr (P2 * pressV1 tf) 1) 18

/-- Stage 3, the divisor `v1c` (R193). -/
def pressV1c (P1 P2 P3 tf : Int) : Int := asr ((32768 + pressV1b P2 P3 tf) * P1) 15

/-- Stage 4, the numerator `N` (R195). -/
def pressNum (adcP v2c : Int) : Int := ((1048576 - adcP) - asr v2c 12) * 3125

/-- Stage 4, the quotient `p`: doubled before the division below 2^31, after it from there on (R195). -/
def pressQuot (N v1c : Int) : Int :=
  if N < 2 ^ 31 then tdiv (N * 2) v1c else tdiv N v1c * 2

/-- Stage 5, the two corrections: `pf` (R196). -/
def pressFinal (P7 P8 P9 p : Int) : Int :=
  let s := asr p 3
  let w1 := asr (P9 * asr (s * s) 13) 12
  let w2 := asr (asr p 2 * P8) 13
  p + asr (w1 + w2 + P7) 4

/-- `compP` (R190), total over all integers: the sentinel 0 when the divisor is zero (R194), else the narrowed result (R197). -/
def compP (adcP P1 P2 P3 P4 P5 P6 P7 P8 P9 tf : Int) : Int :=
  let v1c := pressV1c P1 P2 P3 tf
  if v1c = 0 then 0
  else wrapU32 (pressFinal P7 P8 P9 (pressQuot (pressNum adcP (pressV2c P4 P5 P6 tf)) v1c))

/-- `compP` of the registers (spec/40_arithmetic.md R121). -/
def State.pressOfRegs (s : State) : Int :=
  compP (uval s.adcP) (uval s.coef.digP1) (sval s.coef.digP2) (sval s.coef.digP3) (sval s.coef.digP4) (sval s.coef.digP5)
    (sval s.coef.digP6) (sval s.coef.digP7) (sval s.coef.digP8) (sval s.coef.digP9) (sval s.tFine)

/-- The body of an admitted `CMPP` (R190). -/
def cmppBody (s : State) : State := (s.setPress s.pressOfRegs).finish .pdone

/-- `CMPP` (R190). -/
def execCmpp (s : State) : Host.Outcome State Fault Refusal :=
  .next (s.require (admits .cmpp s.phase) cmppBody)

end Sys2Proof.Machine
end

