-- ==== Sys2Proof/Machine/RawFrame.lean ====
section
/-! DEFINITION. The raw frame decoder and `RDFRM` (spec/42_raw_frame_decode.md R170 to R174). -/

namespace Sys2Proof.Machine

/-- Where the frame starts (spec/20_memory.md R61, R64). -/
def frameAddr : Byte := 0xF7#8

/-- How long the frame is (R64). -/
def frameLen : Nat := 8

/-- `ADC_P` of a frame (R171). -/
def rawP (F : List Byte) : BitVec 20 := be20 (byteAt F 0) (byteAt F 1) (byteAt F 2)

/-- `ADC_T` of a frame (R172). -/
def rawT (F : List Byte) : BitVec 20 := be20 (byteAt F 3) (byteAt F 4) (byteAt F 5)

/-- `ADC_H` of a frame (R173). -/
def rawH (F : List Byte) : BitVec 16 := be16 (byteAt F 6) (byteAt F 7)

/-- The body of an admitted `RDFRM` (R170): the previous cycle is over whether or not the read succeeds
(spec/60_exceptions.md R262 b). While the read is unanswered `PHASE` still has its old value (spec/10_state.md R30,
spec/20_memory.md R67; log 6). -/
def rdfrmBody (s : State) : State :=
  match memRead frameAddr frameLen s with
  | (.silent, s₁) => s₁.wait
  | (.failed, s₁) => s₁.endCycle.raise .readFailed
  | (.got F, s₁) => (s₁.endCycle.setRaw (rawP F) (rawT F) (rawH F)).finish .frame

/-- `RDFRM` (R170). -/
def execRdfrm (s : State) : Host.Outcome State Fault Refusal :=
  .next (s.require (admits .rdfrm s.phase) rdfrmBody)

end Sys2Proof.Machine
end

