-- ==== Sys2Proof/Machine/Temperature.lean ====
section
/-! DEFINITION. Temperature compensation and `CMPT` (spec/43_temperature.md R180 to R183). -/

namespace Sys2Proof.Machine

/-- The first term, `var1` (R180). -/
def tempVar1 (adcT T1 T2 : Int) : Int := asr ((asr adcT 3 - shl T1 1) * T2) 11

/-- The second term, `var2` (R180). -/
def tempVar2 (adcT T1 T3 : Int) : Int :=
  let b2 := asr adcT 4 - T1
  asr (asr (b2 * b2) 12 * T3) 14

/-- `t_fine`, the sum of the two terms (R180). -/
def tempFine (adcT T1 T2 T3 : Int) : Int := tempVar1 adcT T1 T2 + tempVar2 adcT T1 T3

/-- The temperature in hundredths of a degree: `(t_fine * 5 + 128) >> 8` (R180). -/
def tempOut (tf : Int) : Int := asr (tf * 5 + 128) 8

/-- `compT(adc_T, T1, T2, T3) = (T, tf)` (R180), total over all integers (spec/92_eei_decisions.md D17). -/
def compT (adcT T1 T2 T3 : Int) : Int × Int :=
  let tf := tempFine adcT T1 T2 T3
  (tempOut tf, tf)

/-- `compT` of the registers (spec/40_arithmetic.md R121: each enters with its numeric value). -/
def State.tempOfRegs (s : State) : Int × Int :=
  compT (uval s.adcT) (uval s.coef.digT1) (sval s.coef.digT2) (sval s.coef.digT3)

/-- The body of an admitted `CMPT` (R180). -/
def cmptBody (s : State) : State := (s.setTemp s.tempOfRegs.1 s.tempOfRegs.2).finish .tdone

/-- `CMPT` (R180). -/
def execCmpt (s : State) : Host.Outcome State Fault Refusal :=
  .next (s.require (admits .cmpt s.phase) cmptBody)

end Sys2Proof.Machine
end

