-- ==== Sys2Proof/Machine/Dispatch.lean ====
section
/-! DEFINITION. One arm per instruction. -/

namespace Sys2Proof.Machine

def exec (i : Instr) (s : State) : Host.Outcome State Fault Refusal :=
  match i with
  | .ldcal => Sys2Proof.Machine.execLdcal s
  | .rdfrm => Sys2Proof.Machine.execRdfrm s
  | .cmpt => Sys2Proof.Machine.execCmpt s
  | .cmpp => Sys2Proof.Machine.execCmpp s
  | .cmph => Sys2Proof.Machine.execCmph s

end Sys2Proof.Machine
end

