-- ==== Sys2Proof/Machine/Step.lean ====
section
/-! DEFINITION. One step of the machine: the next host action, and the command it issues (spec/46_sequencer.md R230). -/

namespace Sys2Proof.Machine

/-- One step: decode, then (inside each meaning) admission and execution (R230, spec/60_exceptions.md R261). -/
def step (s : State) : Host.Outcome State Fault Refusal :=
  match s.fetch with
  | .done t => .next t
  | .command op t =>
    match decode op with
    | .ok i => exec i t
    | .error _ => .next (takeIllegal t)
  | .stuck f => .fault f
  | .held r => .refused r

/-- The host's next action is to write to `CMD` the instruction whose bits are `w` (log 2). A core that waits for its transport can take no
command, so the wait is over. -/
def State.withFetchWord (s : State) (nbits w : Nat) : State :=
  { s with waiting := false, host := .write 0 (BitVec.ofNat 32 (w % 2 ^ nbits)) :: s.host }

end Sys2Proof.Machine
end

