-- ==== Sys2Proof/WellFormed.lean ====
section
/-! DEFINITION. What is well formed: an instruction, a command byte, a program's bytes, a coefficient file, a transport answer. -/

namespace Sys2Proof

/-- An instruction is always well formed: it has no field that could be wrong (spec/30_encoding.md R90). -/
def Instr.wf : Instr → Bool
  | .ldcal => true
  | .rdfrm => true
  | .cmpt => true
  | .cmpp => true
  | .cmph => true

/-- A command byte is legal when it is one of 0x01..0x05 (R91, R108). -/
def legalOpcode (op : Byte) : Bool := decide (1 ≤ op.toNat) && decide (op.toNat ≤ 5)

/-- A program's bytes are legal when each is (R114). -/
def legalProgram (p : List Byte) : Bool := p.all legalOpcode

/-- A 12-bit value in a 16-bit register: -2048..2047 (spec/10_state.md R21, R24). -/
def fits12 (v : BitVec 16) : Bool := decide (-2048 ≤ sval v) && decide (sval v ≤ 2047)

/-- A coefficient file is well formed when `dig_H4` and `dig_H5` are 12-bit values (R21); every other pattern is legal (R24). -/
def Machine.Coefs.wf (c : Machine.Coefs) : Bool := fits12 c.digH4 && fits12 c.digH5

/-- An answer to a read of `n` bytes is correctly shaped when it has exactly `n` bytes or is a failure (spec/20_memory.md R65). -/
def Machine.Answer.shaped (n : Nat) : Machine.Answer → Bool
  | .bytes b => b.length == n
  | .failure => true
  | .never => false

end Sys2Proof
end

