-- ==== Sys2Proof/Safety.lean ====
section
/-! DEFINITION. The terms claims are stated in: what the registers that hold a value hold, the invariant of the reading cycle, the
transition table as the spec prints it, and what a safe run is. -/

namespace Sys2Proof.Machine

/-- The core's registers as the spec promises them: `PHASE`, `ERR`, and each other register's value where it holds one
(spec/10_state.md R30, R40; spec/46_sequencer.md R244: "compared only on registers that hold values, plus `PHASE` and `ERR`"). -/
structure View where
  phase : Phase
  err : ErrCode
  coef : Option Coefs
  adcP : Option (BitVec 20)
  adcT : Option (BitVec 20)
  adcH : Option (BitVec 16)
  tFine : Option (BitVec 32)
  tOut : Option (BitVec 32)
  pOut : Option (BitVec 32)
  hOut : Option (BitVec 32)
  deriving DecidableEq, Repr

/-- The view of a state: the table of R30. -/
def State.view (s : State) : View where
  phase := s.phase
  err := s.err
  coef := if s.calValid then some s.coef else none
  adcP := if s.rawValid then some s.adcP else none
  adcT := if s.rawValid then some s.adcT else none
  adcH := if s.rawValid then some s.adcH else none
  tFine := if s.tValid then some s.tFine else none
  tOut := if s.tValid then some s.tOut else none
  pOut := if s.pValid then some s.pOut else none
  hOut := if s.hValid then some s.hOut else none

/-- Everything in a state that is not one of the core's registers of R20: the read in progress, the inputs still to come, the ports'
records, the counter of free values. -/
structure Env where
  waiting : Bool
  host : List HostAction
  transport : List Answer
  reads : List ReadRequest
  hostData : Word
  draws : Nat
  deriving DecidableEq, Repr

/-- The surroundings of a state. -/
def State.env (s : State) : Env := ⟨s.waiting, s.host, s.transport, s.reads, s.hostData, s.draws⟩

/-- The next host action issues the command byte `op` (R33). -/
def State.issues (s : State) (op : Byte) : Prop :=
  s.waiting = false ∧ ∃ w rest, s.host = .write 0 w :: rest ∧ cmdByte w = op

/-- The reading cycle is coherent: the coefficient file holds what a decoder can give (R24), and every result that holds a value is the
one its formula gives for the raw registers and coefficients now held, pressure and humidity from the `T_FINE` now in the register
(spec/46_sequencer.md R234 (4)). -/
def State.Coherent (s : State) : Prop :=
  (s.calValid = true → s.coef.wf = true) ∧
  (s.tValid = true → sval s.tOut = s.tempOfRegs.1 ∧ sval s.tFine = s.tempOfRegs.2) ∧
  (s.pValid = true → uval s.pOut = s.pressOfRegs) ∧
  (s.hValid = true → uval s.hOut = s.humOfRegs)

/-- `PHASE` and `ERR` after a command, by the table of spec/46_sequencer.md R232. `ok` says how the transport answers. -/
def transitionTable : Phase → Instr → Bool → Phase × ErrCode
  | .nocal, .ldcal, true => (.idle, .noError)
  | .nocal, .ldcal, false => (.nocal, .readFailed)
  | p, .ldcal, _ => (p, .sequenceError)
  | .nocal, .rdfrm, _ => (.nocal, .sequenceError)
  | _, .rdfrm, true => (.frame, .noError)
  | _, .rdfrm, false => (.idle, .readFailed)
  | .frame, .cmpt, _ => (.tdone, .noError)
  | p, .cmpt, _ => (p, .sequenceError)
  | .tdone, .cmpp, _ => (.pdone, .noError)
  | p, .cmpp, _ => (p, .sequenceError)
  | .pdone, .cmph, _ => (.hdone, .noError)
  | p, .cmph, _ => (p, .sequenceError)

/-- The transport's next answers make the column "ok" (`true`) or "fail" (`false`) of R232 for a command: "`LDCAL` fail covers failure of
either of its two reads". A compensation has one column. -/
def columnOf : Instr → Bool → List Answer → Prop
  | .ldcal, true, tr => ∃ A B rest, tr = .bytes A :: .bytes B :: rest ∧ A.length = 26 ∧ B.length = 8
  | .ldcal, false, tr =>
    (∃ rest, tr = .failure :: rest) ∨ (∃ A rest, tr = .bytes A :: .failure :: rest ∧ A.length = 26)
  | .rdfrm, true, tr => ∃ F rest, tr = .bytes F :: rest ∧ F.length = 8
  | .rdfrm, false, tr => ∃ rest, tr = .failure :: rest
  | .cmpt, _, _ => True
  | .cmpp, _, _ => True
  | .cmph, _, _ => True

/-- Every read ahead is answered: the core is not waiting, and no scripted answer is `never` (spec/20_memory.md R67: "a model that wants
termination must assume the transport answers every read"). -/
def State.TransportAnswers (s : State) : Prop := s.waiting = false ∧ ∀ a ∈ s.transport, a ≠ Answer.never

/-- `n` steps of the machine, stopping at the first stop: the host's own `Host.Core.run` of `Sys2Proof.core`. -/
def State.run (n : Nat) (s : State) : Host.Outcome State Fault Refusal := Host.Core.run Sys2Proof.core n s

/-- A safe run: however many steps are taken, the machine answers a next state. -/
def State.Safe (s : State) : Prop := ∀ n, ∃ t, s.run n = .next t

end Sys2Proof.Machine
end

