-- ==== Sys2Proof/Certificates/Slice0/Obligations.lean ====
section
/-! DEFINITION. The statements for the provers. `/` on integers with a positive literal divisor rounds down, as the spec's `asr` does
(spec/40_arithmetic.md R123); `Int.tdiv` rounds toward zero (R125). -/

open Sys2Proof Sys2Proof.Machine

/-! ### Arithmetic primitives -/

/-- R123: `asr(a, n) = floor(a / 2^n)`, with the rule's own examples. -/
def Obligations.RightShiftFloors : Prop :=
  (∀ (a : Int) (n : Nat), asr a n = ⌊(a : ℚ) / 2 ^ n⌋) ∧
  asr (-1) 4 = -1 ∧ asr (-16) 4 = -1 ∧ asr (-17) 4 = -2 ∧ asr 15 4 = 0 ∧ asr (-1034) 4 = -65 ∧ asr (-2254535) 1 = -1127268

/-- R125: the quotient rounded toward zero, for every sign combination. -/
def Obligations.DivisionTruncatesTowardZero : Prop :=
  ∀ a b : Int, b ≠ 0 → tdiv a b = a.sign * b.sign * ((a.natAbs / b.natAbs : Nat) : Int)

/-- R127: the narrowed value is the unique value in 0..2^32-1 congruent to the argument. -/
def Obligations.NarrowingIsModulo : Prop :=
  ∀ a x : Int, x = wrapU32 a ↔ (0 ≤ x ∧ x < 2 ^ 32 ∧ ∃ k : Int, x = a + k * 2 ^ 32)

/-- R129 on the last line of temperature: `T` is `t_fine * 5 / 256` rounded to nearest, ties toward plus infinity. -/
def Obligations.TemperatureRoundsToNearest : Prop :=
  ∀ tf : Int, tf * 5 - 128 < 256 * tempOut tf ∧ 256 * tempOut tf ≤ tf * 5 + 128

/-! ### Field assembly and the decoders -/

/-- R100, R101, R102, R104, R105: the number each field holds, from its bytes. -/
def Obligations.FieldsAssembleAsNumbers : Prop :=
  (∀ lo hi : Byte, uval (leU16 lo hi) = lo.toNat + 256 * hi.toNat) ∧
  (∀ lo hi : Byte, sval (leS16 lo hi) = sext 16 (lo.toNat + 256 * hi.toNat)) ∧
  (∀ b : Byte, uval (u8 b) = b.toNat) ∧
  (∀ b : Byte, sval (s8 b) = sext 8 b.toNat) ∧
  (∀ b3 b4 : Byte, sval (nibbleH4 b3 b4) = sext 12 (16 * b3.toNat + b4.toNat % 16)) ∧
  (∀ b4 b5 : Byte, sval (nibbleH5 b4 b5) = sext 12 (b4.toNat / 16 + 16 * b5.toNat)) ∧
  (∀ m k l : Byte, uval (be20 m k l) = 4096 * m.toNat + 16 * k.toNat + l.toNat / 16) ∧
  (∀ m l : Byte, uval (be16 m l) = 256 * m.toNat + l.toNat)

/-- R142 to R153: the temperature and pressure coefficients of block A. Their offsets are what the spec itself supplied
(spec/93_implementation_defined.md G4). -/
def Obligations.CaldecBlockACoefficients : Prop :=
  ∀ A B : List Byte,
    uval (caldec A B).digT1 = (byteAt A 0).toNat + 256 * (byteAt A 1).toNat ∧
    sval (caldec A B).digT2 = sext 16 ((byteAt A 2).toNat + 256 * (byteAt A 3).toNat) ∧
    sval (caldec A B).digT3 = sext 16 ((byteAt A 4).toNat + 256 * (byteAt A 5).toNat) ∧
    uval (caldec A B).digP1 = (byteAt A 6).toNat + 256 * (byteAt A 7).toNat ∧
    sval (caldec A B).digP2 = sext 16 ((byteAt A 8).toNat + 256 * (byteAt A 9).toNat) ∧
    sval (caldec A B).digP3 = sext 16 ((byteAt A 10).toNat + 256 * (byteAt A 11).toNat) ∧
    sval (caldec A B).digP4 = sext 16 ((byteAt A 12).toNat + 256 * (byteAt A 13).toNat) ∧
    sval (caldec A B).digP5 = sext 16 ((byteAt A 14).toNat + 256 * (byteAt A 15).toNat) ∧
    sval (caldec A B).digP6 = sext 16 ((byteAt A 16).toNat + 256 * (byteAt A 17).toNat) ∧
    sval (caldec A B).digP7 = sext 16 ((byteAt A 18).toNat + 256 * (byteAt A 19).toNat) ∧
    sval (caldec A B).digP8 = sext 16 ((byteAt A 20).toNat + 256 * (byteAt A 21).toNat) ∧
    sval (caldec A B).digP9 = sext 16 ((byteAt A 22).toNat + 256 * (byteAt A 23).toNat)

/-- R154 to R159: the humidity coefficients, `dig_H1` from block A and the others from block B. -/
def Obligations.CaldecHumidityCoefficients : Prop :=
  ∀ A B : List Byte,
    uval (caldec A B).digH1 = (byteAt A 25).toNat ∧
    sval (caldec A B).digH2 = sext 16 ((byteAt B 0).toNat + 256 * (byteAt B 1).toNat) ∧
    uval (caldec A B).digH3 = (byteAt B 2).toNat ∧
    sval (caldec A B).digH4 = sext 12 (16 * (byteAt B 3).toNat + (byteAt B 4).toNat % 16) ∧
    sval (caldec A B).digH5 = sext 12 ((byteAt B 4).toNat / 16 + 16 * (byteAt B 5).toNat) ∧
    sval (caldec A B).digH6 = sext 8 (byteAt B 6).toNat ∧
    (caldec A B).wf = true

/-- R160, which the spec marks as derived from R142 to R159: the layout round-trips in both directions. `calenc` is the rule's inverse
layout (its bytes are stated too). -/
def Obligations.CalibrationLayoutRoundTrips : Prop :=
  (∀ c : Coefs, c.wf = true → caldec (calencA c) (calencB c) = c) ∧
  (∀ A B : List Byte, A.length = 26 → B.length = 8 →
    calencA (caldec A B) = A.set 24 0 ∧ calencB (caldec A B) = B.set 7 0) ∧
  (∀ v : BitVec 16, (loByte v).toNat = v.toNat % 256 ∧ (hiByte v).toNat = v.toNat / 256) ∧
  (∀ c : Coefs, (byteAt (calencB c) 3).toNat = c.digH4.toNat % 4096 / 16 ∧
    (byteAt (calencB c) 4).toNat = c.digH4.toNat % 16 + 16 * (c.digH5.toNat % 16) ∧
    (byteAt (calencB c) 5).toNat = c.digH5.toNat % 4096 / 16)

/-- R171, R172, R173: the raw values of a frame. -/
def Obligations.RawFrameValues : Prop :=
  ∀ F : List Byte,
    uval (rawP F) = 4096 * (byteAt F 0).toNat + 16 * (byteAt F 1).toNat + (byteAt F 2).toNat / 16 ∧
    uval (rawT F) = 4096 * (byteAt F 3).toNat + 16 * (byteAt F 4).toNat + (byteAt F 5).toNat / 16 ∧
    uval (rawH F) = 256 * (byteAt F 6).toNat + (byteAt F 7).toNat

/-- R107: byte 24 of block A, byte 7 of block B and the low nibbles of frame bytes 2 and 5 have no effect: the states are identical. -/
def Obligations.UnusedDataBitsAreIgnored : Prop :=
  (∀ (s : State) (A B : List Byte) (x y : Byte) (rest : List Answer),
    s.phase = .nocal → A.length = 26 → B.length = 8 →
    exec .ldcal { s with transport := .bytes (A.set 24 x) :: .bytes (B.set 7 y) :: rest } =
      exec .ldcal { s with transport := .bytes A :: .bytes B :: rest }) ∧
  (∀ (s : State) (F : List Byte) (f2 f5 : Byte) (rest : List Answer),
    s.phase ≠ .nocal → F.length = 8 →
    f2.toNat / 16 = (byteAt F 2).toNat / 16 → f5.toNat / 16 = (byteAt F 5).toNat / 16 →
    exec .rdfrm { s with transport := .bytes ((F.set 2 f2).set 5 f5) :: rest } =
      exec .rdfrm { s with transport := .bytes F :: rest })

/-- R77: with a transport that holds the sensor's registers, which register each coefficient and each raw value comes from. The layout of
block A is what the spec itself supplied (spec/93_implementation_defined.md G4). -/
def Obligations.SensorAddressMap : Prop :=
  ∀ (s : State) (image : Byte → Byte) (rest : List Answer),
    (s.phase = .nocal → s.transport = sensorAnswer image 0x88#8 26 :: sensorAnswer image 0xE1#8 8 :: rest →
      ∃ t, exec .ldcal s = .next t ∧ t.phase = .idle ∧ t.err = .noError ∧ t.transport = rest ∧
        t.coef.digT1 = leU16 (image 0x88#8) (image 0x89#8) ∧ t.coef.digT2 = leS16 (image 0x8A#8) (image 0x8B#8) ∧
        t.coef.digT3 = leS16 (image 0x8C#8) (image 0x8D#8) ∧ t.coef.digP1 = leU16 (image 0x8E#8) (image 0x8F#8) ∧
        t.coef.digP2 = leS16 (image 0x90#8) (image 0x91#8) ∧ t.coef.digP3 = leS16 (image 0x92#8) (image 0x93#8) ∧
        t.coef.digP4 = leS16 (image 0x94#8) (image 0x95#8) ∧ t.coef.digP5 = leS16 (image 0x96#8) (image 0x97#8) ∧
        t.coef.digP6 = leS16 (image 0x98#8) (image 0x99#8) ∧ t.coef.digP7 = leS16 (image 0x9A#8) (image 0x9B#8) ∧
        t.coef.digP8 = leS16 (image 0x9C#8) (image 0x9D#8) ∧ t.coef.digP9 = leS16 (image 0x9E#8) (image 0x9F#8) ∧
        t.coef.digH1 = image 0xA1#8 ∧ t.coef.digH2 = leS16 (image 0xE1#8) (image 0xE2#8) ∧ t.coef.digH3 = image 0xE3#8 ∧
        t.coef.digH4 = nibbleH4 (image 0xE4#8) (image 0xE5#8) ∧ t.coef.digH5 = nibbleH5 (image 0xE5#8) (image 0xE6#8) ∧
        t.coef.digH6 = image 0xE7#8) ∧
    (s.phase ≠ .nocal → s.transport = sensorAnswer image 0xF7#8 8 :: rest →
      ∃ t, exec .rdfrm s = .next t ∧ t.phase = .frame ∧ t.err = .noError ∧ t.transport = rest ∧
        t.adcP = be20 (image 0xF7#8) (image 0xF8#8) (image 0xF9#8) ∧
        t.adcT = be20 (image 0xFA#8) (image 0xFB#8) (image 0xFC#8) ∧
        t.adcH = be16 (image 0xFD#8) (image 0xFE#8))

/-! ### The command byte and programs -/

/-- R91: the opcode map, both ways; every other byte is reserved. -/
def Obligations.OpcodeMap : Prop :=
  encode .ldcal = 0x01#8 ∧ encode .rdfrm = 0x02#8 ∧ encode .cmpt = 0x03#8 ∧ encode .cmpp = 0x04#8 ∧ encode .cmph = 0x05#8 ∧
  (∀ i : Instr, decode (encode i) = .ok i) ∧
  (∀ (op : Byte) (i : Instr), decode op = .ok i → encode i = op) ∧
  (∀ op : Byte, (op.toNat = 0 ∨ 6 ≤ op.toNat) → decode op = .error (.illegalCommand op))

/-- R114, R113, with R91 and R108: a program's bytes are its command bytes in order; they decode to the program; the bytes of
`STARTUP ; CYCLE` are 01 02 03 04 05; a byte sequence is some program's exactly when each byte is legal. -/
def Obligations.ProgramBytesRoundTrip : Prop :=
  encodeProgram [] = [] ∧
  (∀ (i : Instr) (p : List Instr), encodeProgram (i :: p) = encode i :: encodeProgram p) ∧
  (∀ p : List Instr, decodeProgram (encodeProgram p) = .ok p) ∧
  (∀ bs : List Byte, legalProgram bs = true ↔ ∃ p, decodeProgram bs = .ok p ∧ encodeProgram p = bs) ∧
  encodeProgram (Pseudo.startup.expand ++ Pseudo.cycle.expand) = [0x01#8, 0x02#8, 0x03#8, 0x04#8, 0x05#8]

/-- R112, R113: the assembler reads back a printed program; a mnemonic is read in any mixture of cases and with a comment after it; a
pseudo-instruction's name is its expansion. (Blanks and empty lines are the model's choice, log 14.) -/
def Obligations.AssemblerReadsMnemonics : Prop :=
  (∀ p : List Instr, Asm.program (Asm.print p) = some p) ∧
  (∀ (i : Instr) (w comment : List Char), w.map Asm.upper = i.mnemonic.toList → Asm.line (w ++ ';' :: comment) = some [i]) ∧
  (∀ (q : Pseudo) (w comment : List Char), w.map Asm.upper = q.mnemonic.toList → Asm.line (w ++ ';' :: comment) = some q.expand)

/-! ### The step -/

/-- R230: a word written to `CMD` whose bits [7:0] decode to an instruction makes the step that instruction's meaning, in the state from
which that one host action has been taken. -/
def Obligations.StepRunsDecodedInstruction : Prop :=
  ∀ (s : State) (w : Word) (rest : List HostAction) (i : Instr),
    s.waiting = false → s.host = .write 0 w :: rest → decode (BitVec.ofNat 8 (w.toNat % 256)) = .ok i →
    step s = exec i { s with host := rest }

/-- R252, R108: a byte that is no command changes `ERR` only, to code 3. -/
def Obligations.IllegalCommandChangesErrOnly : Prop :=
  (∀ (s : State) (w : Word) (rest : List HostAction),
    s.waiting = false → s.host = .write 0 w :: rest → (w.toNat % 256 = 0 ∨ 6 ≤ w.toNat % 256) →
    step s = .next { s with host := rest, err := .illegalCommand }) ∧
  ErrCode.illegalCommand.code = 3

/-- R251: a command in a phase that does not admit it changes `ERR` only, to code 2. -/
def Obligations.SequenceErrorChangesErrOnly : Prop :=
  (∀ s : State,
    (s.phase ≠ .nocal → exec .ldcal s = .next { s with err := .sequenceError }) ∧
    (s.phase = .nocal → exec .rdfrm s = .next { s with err := .sequenceError }) ∧
    (s.phase ≠ .frame → exec .cmpt s = .next { s with err := .sequenceError }) ∧
    (s.phase ≠ .tdone → exec .cmpp s = .next { s with err := .sequenceError }) ∧
    (s.phase ≠ .pdone → exec .cmph s = .next { s with err := .sequenceError })) ∧
  ErrCode.sequenceError.code = 2

/-- R232: the transition table, every row and column (an illegal byte is the last). In an "SE" cell nothing but `ERR` changes. -/
def Obligations.TransitionTableHolds : Prop :=
  (∀ (i : Instr) (ok : Bool) (s : State), columnOf i ok s.transport →
    ∃ t, exec i s = .next t ∧ (t.phase, t.err) = transitionTable s.phase i ok ∧ t.waiting = s.waiting ∧
      ((transitionTable s.phase i ok).2 = .sequenceError → t = { s with err := .sequenceError })) ∧
  (∀ s : State, (takeIllegal s).phase = s.phase ∧ (takeIllegal s).err = .illegalCommand)

/-- R262 (d): whatever the state, each of the five commands answers a next state. Where its read is never answered that next state is
the model's choice (log 5): the core waits in it, and the spec says only that the operation does not complete (R67, U8). -/
def Obligations.EveryCommandAnswersNext : Prop :=
  ∀ (i : Instr) (s : State), ∃ t, exec i s = .next t

/-- R274, R283: with no host action pending and no read in progress the machine holds its state. That this is a step at all is the
model's choice (log 3). -/
def Obligations.IdleMachineHoldsState : Prop :=
  ∀ s : State, s.waiting = false → s.host = [] → step s = .next s

/-! ### `LDCAL` and `RDFRM` -/

/-- R65, R66: what the core gets for a read. A scripted answer is the one it gets, and its bytes are taken when there are as many as asked
for. Past the script the answer is free, failure or exactly that many bytes; that it always comes is the model's choice (log 4), and that
a longer answer is a failure its reading (log 12). -/
def Obligations.ReadGetsTheNextAnswer : Prop :=
  (∀ (s : State) (a : Answer) (rest : List Answer) (n : Nat), s.transport = a :: rest → s.nextAnswer n = a) ∧
  (∀ (b : List Byte) (n : Nat), b.length = n → (Answer.bytes b).outcome n = .got b) ∧
  (∀ (b : List Byte) (n : Nat), b.length ≠ n → (Answer.bytes b).outcome n = .failed) ∧
  (∀ n : Nat, Answer.failure.outcome n = .failed ∧ Answer.never.outcome n = .silent) ∧
  (∀ (s : State) (n : Nat), s.transport = [] →
    (s.nextAnswer n).outcome n = .failed ∨ ∃ b, b.length = n ∧ (s.nextAnswer n).outcome n = .got b)

/-- R140: `LDCAL` when both reads succeed, when the first fails, when the second fails, and when it is not admitted: the whole next
state each time, so also what it leaves unchanged. The answers may be scripted or free (log 4): a read takes a scripted one if there is
one, and counts a free draw if there is none. -/
def Obligations.LdcalLoadsCalibration : Prop :=
  ∀ (s : State) (A B : List Byte),
    (s.phase = .nocal → (s.nextAnswer 26).outcome 26 = .got A → ((s.afterRead 0x88#8 26).nextAnswer 8).outcome 8 = .got B →
      exec .ldcal s = .next { s with coef := caldec A B, phase := .idle, err := .noError,
                                     transport := s.transport.drop 2, draws := s.draws + (2 - s.transport.length),
                                     reads := s.reads ++ [⟨0x88#8, 26⟩, ⟨0xE1#8, 8⟩] }) ∧
    (s.phase = .nocal → (s.nextAnswer 26).outcome 26 = .failed →
      exec .ldcal s = .next { s with err := .readFailed,
                                     transport := s.transport.drop 1, draws := s.draws + (1 - s.transport.length),
                                     reads := s.reads ++ [⟨0x88#8, 26⟩] }) ∧
    (s.phase = .nocal → (s.nextAnswer 26).outcome 26 = .got A → ((s.afterRead 0x88#8 26).nextAnswer 8).outcome 8 = .failed →
      exec .ldcal s = .next { s with err := .readFailed,
                                     transport := s.transport.drop 2, draws := s.draws + (2 - s.transport.length),
                                     reads := s.reads ++ [⟨0x88#8, 26⟩, ⟨0xE1#8, 8⟩] }) ∧
    (s.phase ≠ .nocal → exec .ldcal s = .next { s with err := .sequenceError })

/-- R170: `RDFRM` when its read succeeds, when it fails, and when it is not admitted. The coefficients keep their value; `T_FINE` and the
results hold none afterwards; the raw registers hold the frame's values, or none. The answer may be scripted or free (log 4). -/
def Obligations.RdfrmReadsFrame : Prop :=
  ∀ (s : State) (F : List Byte),
    (s.phase ≠ .nocal → (s.nextAnswer 8).outcome 8 = .got F →
      ∃ t, exec .rdfrm s = .next t ∧
        t.view = ⟨.frame, .noError, some s.coef, some (rawP F), some (rawT F), some (rawH F), none, none, none, none⟩ ∧
        t.env = { s.env with transport := s.transport.drop 1, draws := s.draws + (1 - s.transport.length),
                             reads := s.reads ++ [⟨0xF7#8, 8⟩] }) ∧
    (s.phase ≠ .nocal → (s.nextAnswer 8).outcome 8 = .failed →
      ∃ t, exec .rdfrm s = .next t ∧
        t.view = ⟨.idle, .readFailed, some s.coef, none, none, none, none, none, none, none⟩ ∧
        t.env = { s.env with transport := s.transport.drop 1, draws := s.draws + (1 - s.transport.length),
                             reads := s.reads ++ [⟨0xF7#8, 8⟩] }) ∧
    (s.phase = .nocal → exec .rdfrm s = .next { s with err := .sequenceError })

/-- R65: an answer of another length than asked for counts as failure (that a longer one does too is the model's reading, log 12). -/
def Obligations.WrongLengthCountsAsFailure : Prop :=
  ∀ (s : State) (A b : List Byte) (rest : List Answer),
    (s.phase = .nocal → s.transport = .bytes b :: rest → b.length ≠ 26 →
      exec .ldcal s = .next { s with err := .readFailed, transport := rest, reads := s.reads ++ [⟨0x88#8, 26⟩] }) ∧
    (s.phase = .nocal → s.transport = .bytes A :: .bytes b :: rest → A.length = 26 → b.length ≠ 8 →
      exec .ldcal s = .next { s with err := .readFailed, transport := rest,
                                     reads := s.reads ++ [⟨0x88#8, 26⟩, ⟨0xE1#8, 8⟩] }) ∧
    (s.phase ≠ .nocal → s.transport = .bytes b :: rest → b.length ≠ 8 →
      ∃ t, exec .rdfrm s = .next t ∧
        t.view = ⟨.idle, .readFailed, some s.coef, none, none, none, none, none, none, none⟩ ∧
        t.env = { s.env with transport := rest, reads := s.reads ++ [⟨0xF7#8, 8⟩] })

/-- R64: which reads a command issues, in order: `LDCAL` two, or one when the first fails; `RDFRM` one; the compensations, a refused
command and an illegal byte none. -/
def Obligations.ReadsIssuedByEachCommand : Prop :=
  (∀ s t : State, s.phase = .nocal → exec .ldcal s = .next t →
    t.reads = s.reads ++ (match (s.nextAnswer 26).outcome 26 with
      | .got _ => [⟨0x88#8, 26⟩, ⟨0xE1#8, 8⟩]
      | _ => [⟨0x88#8, 26⟩])) ∧
  (∀ s t : State, s.phase ≠ .nocal → exec .rdfrm s = .next t → t.reads = s.reads ++ [⟨0xF7#8, 8⟩]) ∧
  (∀ (i : Instr) (s t : State), i = .cmpt ∨ i = .cmpp ∨ i = .cmph → exec i s = .next t → t.reads = s.reads) ∧
  (∀ (i : Instr) (s t : State), admits i s.phase = false → exec i s = .next t → t.reads = s.reads) ∧
  (∀ s : State, (takeIllegal s).reads = s.reads)

/-! ### The compensations -/

/-- R180: `CMPT`. The two terms, `t_fine` and the temperature as exact integers, which the 32-bit registers hold without loss; everything
else of the state is unchanged but `PHASE` and `ERR`. The formula's body is what the spec itself supplied (R181,
spec/93_implementation_defined.md G1). -/
def Obligations.CmptComputesTemperature : Prop :=
  ∀ s : State,
    (s.phase = .frame →
      ∃ t, exec .cmpt s = .next t ∧
        t = { s with tFine := t.tFine, tOut := t.tOut, phase := .tdone, err := .noError } ∧
        (let adc := uval s.adcT
         let T1 := uval s.coef.digT1
         let T2 := sval s.coef.digT2
         let T3 := sval s.coef.digT3
         let var1 := (adc / 8 - T1 * 2) * T2 / 2048
         let var2 := (adc / 16 - T1) * (adc / 16 - T1) / 4096 * T3 / 16384
         sval t.tFine = var1 + var2 ∧ sval t.tOut = ((var1 + var2) * 5 + 128) / 256)) ∧
    (s.phase ≠ .frame → exec .cmpt s = .next { s with err := .sequenceError })

/-- R28, which the spec marks as derived from R180: whatever the coefficients and the raw value, `t_fine` lies in -4194224..4194144 (and `T_OUT` then in -81918..81917, R29). -/
def Obligations.TFineStaysInRange : Prop :=
  ∀ (adc : BitVec 20) (T1 T2 T3 : BitVec 16),
    -4194224 ≤ tempFine (uval adc) (uval T1) (sval T2) (sval T3) ∧
    tempFine (uval adc) (uval T1) (sval T2) (sval T3) ≤ 4194144 ∧
    -81918 ≤ (compT (uval adc) (uval T1) (sval T2) (sval T3)).1 ∧
    (compT (uval adc) (uval T1) (sval T2) (sval T3)).1 ≤ 81917

/-- R190 with its stages R191 to R197: `CMPP`. The result as an exact integer, narrowed to 32 bits; everything else of the state is
unchanged but `PHASE` and `ERR`. The formula's body is what the spec itself supplied (spec/93_implementation_defined.md G2). -/
def Obligations.CmppComputesPressure : Prop :=
  ∀ s : State,
    (s.phase = .tdone →
      ∃ t, exec .cmpp s = .next t ∧
        t = { s with pOut := t.pOut, phase := .pdone, err := .noError } ∧
        (let P1 := uval s.coef.digP1
         let P2 := sval s.coef.digP2
         let P3 := sval s.coef.digP3
         let P4 := sval s.coef.digP4
         let P5 := sval s.coef.digP5
         let P6 := sval s.coef.digP6
         let P7 := sval s.coef.digP7
         let P8 := sval s.coef.digP8
         let P9 := sval s.coef.digP9
         let v1 := sval s.tFine / 2 - 64000
         let q := v1 / 4
         let q2 := q * q
         let v2 := q2 / 2048 * P6
         let v2b := v2 + v1 * P5 * 2
         let v2c := v2b / 4 + P4 * 65536
         let v1b := (P3 * (q2 / 8192) / 8 + P2 * v1 / 2) / 262144
         let v1c := (32768 + v1b) * P1 / 32768
         let N := ((1048576 - uval s.adcP) - v2c / 4096) * 3125
         let p := if N < 2147483648 then Int.tdiv (N * 2) v1c else Int.tdiv N v1c * 2
         let w1 := P9 * (p / 8 * (p / 8) / 8192) / 4096
         let w2 := p / 4 * P8 / 8192
         let pf := p + (w1 + w2 + P7) / 16
         uval t.pOut = if v1c = 0 then 0 else pf % 4294967296)) ∧
    (s.phase ≠ .tdone → exec .cmpp s = .next { s with err := .sequenceError })

/-- R194, R254: a zero divisor is no fault: `P_OUT <- 0`, `PHASE <- 4`, `ERR <- 0`, and `CMPH` is admitted afterwards. It is taken whenever
`dig_P1 = 0`. -/
def Obligations.PressureSentinelIsZero : Prop :=
  (∀ s : State, s.phase = .tdone →
    pressV1c (uval s.coef.digP1) (sval s.coef.digP2) (sval s.coef.digP3) (sval s.tFine) = 0 →
    exec .cmpp s = .next { s with pOut := 0, phase := .pdone, err := .noError } ∧
    ∃ u, exec .cmph { s with pOut := 0, phase := .pdone, err := .noError } = .next u ∧ u.phase = .hdone ∧ u.err = .noError) ∧
  (∀ P2 P3 tf : Int, pressV1c 0 P2 P3 tf = 0)

/-- R210 with its stages R211 to R213: `CMPH`. The result as an exact integer; everything else of the state is unchanged but `PHASE` and
`ERR`. The formula's body is what the spec itself supplied (spec/93_implementation_defined.md G3). -/
def Obligations.CmphComputesHumidity : Prop :=
  ∀ s : State,
    (s.phase = .pdone →
      ∃ t, exec .cmph s = .next t ∧
        t = { s with hOut := t.hOut, phase := .hdone, err := .noError } ∧
        (let H1 := uval s.coef.digH1
         let H2 := sval s.coef.digH2
         let H3 := uval s.coef.digH3
         let H4 := sval s.coef.digH4
         let H5 := sval s.coef.digH5
         let H6 := sval s.coef.digH6
         let v := sval s.tFine - 76800
         let A := (uval s.adcH * 16384 - H4 * 1048576 - H5 * v + 16384) / 32768
         let b1 := v * H6 / 1024
         let b2 := v * H3 / 2048 + 32768
         let b3 := b1 * b2 / 1024 + 2097152
         let B := (b3 * H2 + 8192) / 16384
         let x := A * B
         let y := x / 32768
         let x2 := x - y * y / 128 * H1 / 16
         uval t.hOut = max 0 (min x2 419430400) / 4096)) ∧
    (s.phase ≠ .pdone → exec .cmph s = .next { s with err := .sequenceError })

/-- R214, which the spec marks as derived from R213: for every integer value of every argument the humidity lies in 0..102400. -/
def Obligations.HumidityStaysInRange : Prop :=
  ∀ adcH H1 H2 H3 H4 H5 H6 tf : Int, 0 ≤ compH adcH H1 H2 H3 H4 H5 H6 tf ∧ compH adcH H1 H2 H3 H4 H5 H6 tf ≤ 102400

/-- R255, R213: an accumulator outside [0, 419430400] is clamped, and `CMPH` completes with no indication of it: nothing but `H_OUT`,
`PHASE` and `ERR` differs, and these two end as they always do. -/
def Obligations.HumidityClampIsNoFault : Prop :=
  ∀ s : State, s.phase = .pdone →
    ∃ t, exec .cmph s = .next t ∧ t = { s with hOut := t.hOut, phase := .hdone, err := .noError } ∧
      (let x2 := humX2 (uval s.coef.digH1)
        (humA (uval s.adcH) (sval s.coef.digH4) (sval s.coef.digH5) (sval s.tFine) *
          humB (sval s.coef.digH2) (uval s.coef.digH3) (sval s.coef.digH6) (sval s.tFine))
       (x2 < 0 → t.hOut.toNat = 0) ∧ (419430400 < x2 → t.hOut.toNat = 102400) ∧
       (0 ≤ x2 → x2 ≤ 419430400 → uval t.hOut = x2 / 4096))

/-! ### Faults -/

/-- R250: who raises `ReadFailed`, and what it leaves. -/
def Obligations.ReadFailedEffects : Prop :=
  (∀ (i : Instr) (s t : State), exec i s = .next t → t.waiting = false → t.err = .readFailed → i = .ldcal ∨ i = .rdfrm) ∧
  (∀ s t : State, exec .ldcal s = .next t → t.waiting = false → t.err = .readFailed →
    t.view = ⟨.nocal, .readFailed, none, none, none, none, none, none, none, none⟩) ∧
  (∀ s t : State, exec .rdfrm s = .next t → t.waiting = false → t.err = .readFailed →
    t.view = ⟨.idle, .readFailed, some s.coef, none, none, none, none, none, none, none⟩) ∧
  ErrCode.readFailed.code = 1

/-- R263: after a fault the registers are those before the command with `ERR` changed, or, for `ReadFailed` in `RDFRM`, those with
`PHASE = 1` (so without the cycle's values) and `ERR = 1`. -/
def Obligations.FaultsArePrecise : Prop :=
  ∀ (s t : State) (w : Word) (rest : List HostAction),
    s.waiting = false → s.host = .write 0 w :: rest → step s = .next t → t.waiting = false → t.err ≠ .noError →
    t.view = { s.view with err := t.err } ∨
    (cmdByte w = 0x02#8 ∧ t.err = .readFailed ∧
      t.view = ⟨.idle, .readFailed, s.view.coef, none, none, none, none, none, none, none⟩)

/-- R264: `ERR` is overwritten by the next command's outcome, whatever it was. -/
def Obligations.ErrIsNotSticky : Prop :=
  ∀ (s t : State) (e : ErrCode) (w : Word) (rest : List HostAction),
    s.waiting = false → s.host = .write 0 w :: rest → step s = .next t → t.waiting = false →
    step { s with err := e } = .next t

/-- R67, R281 and U8, U9: a read the transport never answers leaves the operation waiting, `PHASE` and `ERR` not written; from there only
reset leads on, and the operation has no effect on the state after it. The two named stops are the model's form of U8 and U9
(log 5, log 6, log 7). -/
def Obligations.UnansweredReadWaitsForReset : Prop :=
  (∀ (s : State) (rest : List Answer), s.phase = .nocal → s.transport = .never :: rest →
    exec .ldcal s = .next { s with waiting := true, transport := rest, reads := s.reads ++ [⟨0x88#8, 26⟩] }) ∧
  (∀ (s : State) (A : List Byte) (rest : List Answer), s.phase = .nocal → s.transport = .bytes A :: .never :: rest → A.length = 26 →
    exec .ldcal s = .next { s with waiting := true, transport := rest, reads := s.reads ++ [⟨0x88#8, 26⟩, ⟨0xE1#8, 8⟩] }) ∧
  (∀ (s : State) (rest : List Answer), s.phase ≠ .nocal → s.transport = .never :: rest →
    exec .rdfrm s = .next { s with waiting := true, transport := rest, reads := s.reads ++ [⟨0xF7#8, 8⟩] }) ∧
  (∀ s : State, s.waiting = true →
    (s.host = [] → step s = .fault .transportNeverAnswers) ∧
    (∀ k rest, s.host = .read k :: rest → step s = .refused .hostHeldOff) ∧
    (∀ k w rest, s.host = .write k w :: rest → step s = .refused .hostHeldOff) ∧
    (∀ rest, s.host = .reset :: rest →
      ∃ t, step s = .next t ∧ t.view = State.reset.view ∧ t.env = { s.env with host := rest, waiting := false }))

/-! ### Reset and the host registers -/

/-- R280: the reset signal. `PHASE <- 0`, `ERR <- 0`, `STATUS` reads 0, and no other register holds a value. -/
def Obligations.ResetSignalEffect : Prop :=
  ∀ (s : State) (rest : List HostAction), s.host = .reset :: rest →
    ∃ t, step s = .next t ∧ t.view = ⟨.nocal, .noError, none, none, none, none, none, none, none, none⟩ ∧
      t.status = 0 ∧ t.env = { s.env with host := rest, waiting := false }

/-- R42: the registers right after reset. -/
def Obligations.ResetState : Prop :=
  State.reset.view = ⟨.nocal, .noError, none, none, none, none, none, none, none, none⟩ ∧ State.reset.status = 0

/-- R34: the fields of the `STATUS` word; a write to it changes nothing. -/
def Obligations.StatusWordFields : Prop :=
  (∀ s : State, s.status.toNat = s.phase.code + 16 * s.err.code ∧ (s.status.extractLsb' 0 3).toNat = s.phase.code ∧
    s.status.getLsbD 3 = false ∧ (s.status.extractLsb' 4 2).toNat = s.err.code ∧ s.status.extractLsb' 6 26 = 0) ∧
  (∀ (s : State) (w : Word) (rest : List HostAction), s.waiting = false → s.host = .write 1 w :: rest →
    step s = .next { s with host := rest })

/-- R33: the host register map. A read returns the word of the table and changes no register; a signed coefficient is sign-extended and an
unsigned one zero-extended; a write to an index other than `CMD` changes nothing. -/
def Obligations.HostRegisterMap : Prop :=
  (∀ (s : State) (k : Nat) (rest : List HostAction), s.waiting = false → s.host = .read k :: rest →
    ∃ t, step s = .next t ∧ t.view = s.view ∧
      t.env = { s.env with host := rest, hostData := t.hostData, draws := t.draws } ∧
      (k = 0 → t.hostData = 0) ∧
      (k = 1 → t.hostData = s.status) ∧
      (k = 2 → 3 ≤ s.phase.code → sval t.hostData = sval s.tOut) ∧
      (k = 3 → 4 ≤ s.phase.code → uval t.hostData = uval s.pOut) ∧
      (k = 4 → s.phase.code = 5 → uval t.hostData = uval s.hOut) ∧
      (k = 5 → 3 ≤ s.phase.code → sval t.hostData = sval s.tFine) ∧
      (6 ≤ k → k ≤ 15 → t.hostData = 0) ∧
      (16 ≤ k → k ≤ 33 → 1 ≤ s.phase.code → t.hostData = s.coef.word (k - 16)) ∧
      (34 ≤ k → t.hostData = 0)) ∧
  (∀ c : Coefs,
    uval (c.word 0) = uval c.digT1 ∧ sval (c.word 1) = sval c.digT2 ∧ sval (c.word 2) = sval c.digT3 ∧
    uval (c.word 3) = uval c.digP1 ∧ sval (c.word 4) = sval c.digP2 ∧ sval (c.word 5) = sval c.digP3 ∧
    sval (c.word 6) = sval c.digP4 ∧ sval (c.word 7) = sval c.digP5 ∧ sval (c.word 8) = sval c.digP6 ∧
    sval (c.word 9) = sval c.digP7 ∧ sval (c.word 10) = sval c.digP8 ∧ sval (c.word 11) = sval c.digP9 ∧
    uval (c.word 12) = uval c.digH1 ∧ sval (c.word 13) = sval c.digH2 ∧ uval (c.word 14) = uval c.digH3 ∧
    sval (c.word 15) = sval c.digH4 ∧ sval (c.word 16) = sval c.digH5 ∧ sval (c.word 17) = sval c.digH6) ∧
  (∀ (s : State) (k : Nat) (w : Word) (rest : List HostAction), s.waiting = false → s.host = .write k w :: rest → k ≠ 0 →
    step s = .next { s with host := rest })

/-- R40: a host read of a register that holds no value returns a word nothing fixes: the free value of the draw, whatever bits the state
holds for that register. (The draw is the model's form of "any value", log 10.) -/
def Obligations.ReadOfNoValueIsFree : Prop :=
  ∀ (s : State) (k : Nat) (rest : List HostAction), s.waiting = false → s.host = .read k :: rest →
    ((k = 2 ∨ k = 5) ∧ s.phase.code < 3) ∨ (k = 3 ∧ s.phase.code < 4) ∨ (k = 4 ∧ s.phase.code < 5) ∨
      (16 ≤ k ∧ k ≤ 33 ∧ s.phase.code < 1) →
    step s = .next { s with host := rest, hostData := Config.freeWord s.draws, draws := s.draws + 1 }

/-! ### Whole-machine rules -/

/-- R40, R41: no step reads a register that holds no value. Two states that agree on every register that holds a value, and on what is
outside the core, step to states that agree again (and stop alike). -/
def Obligations.NoStepReadsARegisterWithoutValue : Prop :=
  ∀ s₁ s₂ : State, s₁.view = s₂.view → s₁.env = s₂.env →
    (∀ t₁, step s₁ = .next t₁ → ∃ t₂, step s₂ = .next t₂ ∧ t₁.view = t₂.view ∧ t₁.env = t₂.env) ∧
    (∀ f, step s₁ = .fault f → step s₂ = .fault f) ∧
    (∀ r, step s₁ = .refused r → step s₂ = .refused r)

/-- R234 (4): every step keeps the reading cycle coherent. Every result that holds a value is the one its formula gives for the raw
registers and coefficients now held, so no stale `t_fine` is ever used. -/
def Obligations.EveryStepKeepsCycleCoherent : Prop :=
  ∀ s t : State, s.Coherent → step s = .next t → t.Coherent

/-- The reading cycle is coherent at reset. -/
def Obligations.CycleCoherentAtReset : Prop := State.reset.Coherent

/-- R234 (2), R282: once `PHASE` is at least 1 only the reset signal brings it back to 0. -/
def Obligations.PhaseReturnsToNocalOnlyByReset : Prop :=
  ∀ s t : State, step s = .next t → s.phase ≠ .nocal → t.phase = .nocal → ∃ rest, s.host = .reset :: rest

/-- R22, R234 (3): a loaded coefficient file keeps its value through every step but reset; and it is loaded only by `LDCAL`, from phase 0. -/
def Obligations.CoefficientsLoadedOnceUntilReset : Prop :=
  (∀ s t : State, step s = .next t → s.phase ≠ .nocal → (∀ rest, s.host ≠ .reset :: rest) →
    t.view.coef = some s.coef) ∧
  (∀ (s t : State) (c : Coefs), step s = .next t → t.view.coef = some c → s.view.coef = none →
    s.issues 0x01#8 ∧ s.phase = .nocal ∧ t.phase = .idle)

/-- R20, R27: the only writer of each register but `PHASE` and `ERR`, which many write: the coefficients, the raw registers, `T_FINE` and
the results. A value held after a step was held before it, unless the step ran the register's writer. -/
def Obligations.CoefRawTFineAndResultsHaveOneWriter : Prop :=
  ∀ s t : State, step s = .next t →
    (∀ v, t.view.coef = some v → s.view.coef = some v ∨ s.issues 0x01#8) ∧
    (∀ v, t.view.adcP = some v → s.view.adcP = some v ∨ s.issues 0x02#8) ∧
    (∀ v, t.view.adcT = some v → s.view.adcT = some v ∨ s.issues 0x02#8) ∧
    (∀ v, t.view.adcH = some v → s.view.adcH = some v ∨ s.issues 0x02#8) ∧
    (∀ v, t.view.tFine = some v → s.view.tFine = some v ∨ s.issues 0x03#8) ∧
    (∀ v, t.view.tOut = some v → s.view.tOut = some v ∨ s.issues 0x03#8) ∧
    (∀ v, t.view.pOut = some v → s.view.pOut = some v ∨ s.issues 0x04#8) ∧
    (∀ v, t.view.hOut = some v → s.view.hOut = some v ∨ s.issues 0x05#8)

/-- R67, R262: from a state that is not waiting and whose scripted answers contain no `never`, the step answers a next state, and that
state is such a state again, whatever the host does. That unscripted reads are always answered is the model's choice (log 4). -/
def Obligations.StepKeepsTransportAnswering : Prop :=
  ∀ s : State, s.TransportAnswers → ∃ t, step s = .next t ∧ t.TransportAnswers

/-- R67, R262: if every read ahead is answered, the machine never stops, however long it runs and whatever the host does. That unscripted
reads are always answered is the model's choice (log 4). -/
def Obligations.AnsweredTransportNeverStops : Prop :=
  ∀ s : State, s.TransportAnswers → s.Safe

/-- R245: `CYCLE` and `TEMP` as the host issues them, one command a step. -/
def Obligations.CycleAndTempExpand : Prop :=
  ∀ (s : State) (F : List Byte) (rest : List HostAction) (tr : List Answer), s.waiting = false →
    (s.host = hostProgram (encodeProgram Pseudo.cycle.expand) ++ rest →
      (s.phase ≠ .nocal → s.transport = .bytes F :: tr → F.length = 8 →
        ∃ t, s.run 4 = .next t ∧ t.phase = .hdone ∧ t.err = .noError ∧ t.host = rest ∧ t.transport = tr) ∧
      (s.phase ≠ .nocal → s.transport = .failure :: tr →
        (∃ t, s.run 1 = .next t ∧ t.phase = .idle ∧ t.err = .readFailed) ∧
        (∃ t, s.run 4 = .next t ∧ t.phase = .idle ∧ t.err = .sequenceError ∧ t.host = rest ∧ t.transport = tr)) ∧
      (s.phase = .nocal → s.run 4 = .next { s with host := rest, err := .sequenceError })) ∧
    (s.host = hostProgram (encodeProgram Pseudo.temp.expand) ++ rest → s.phase ≠ .nocal → s.transport = .bytes F :: tr →
      F.length = 8 → ∃ t, s.run 2 = .next t ∧ t.phase = .tdone ∧ t.err = .noError ∧ t.host = rest)

/-- R286, R244: start-up and one full cycle, from any state of phase 0. The three results are the three pure functions of the decoded
blocks and frame, `t_fine` threaded from the first to the other two, and `STATUS` is 0x05. -/
def Obligations.StartupAndCycleCompleteReading : Prop :=
  ∀ (s : State) (A B F : List Byte) (rest : List HostAction) (tr : List Answer),
    s.waiting = false → s.phase = .nocal → A.length = 26 → B.length = 8 → F.length = 8 →
    s.host = hostProgram [0x01#8, 0x02#8, 0x03#8, 0x04#8, 0x05#8] ++ rest →
    s.transport = .bytes A :: .bytes B :: .bytes F :: tr →
    ∃ t, s.run 5 = .next t ∧ t.status = 0x05#32 ∧ t.coef = caldec A B ∧ t.host = rest ∧ t.transport = tr ∧
      (let c := caldec A B
       let tf := (compT (uval (rawT F)) (uval c.digT1) (sval c.digT2) (sval c.digT3)).2
       sval t.tOut = (compT (uval (rawT F)) (uval c.digT1) (sval c.digT2) (sval c.digT3)).1 ∧ sval t.tFine = tf ∧
       uval t.pOut = compP (uval (rawP F)) (uval c.digP1) (sval c.digP2) (sval c.digP3) (sval c.digP4) (sval c.digP5)
         (sval c.digP6) (sval c.digP7) (sval c.digP8) (sval c.digP9) tf ∧
       uval t.hOut = compH (uval (rawH F)) (uval c.digH1) (sval c.digH2) (uval c.digH3) (sval c.digH4) (sval c.digH5)
         (sval c.digH6) tf)
end

