-- ==== Sys2Proof/Laws/Decode.lean ====
section
/-! SUPPORT. When the decoder reads an instruction and when it refuses. -/

namespace Sys2Proof

/-- A byte decodes exactly when it is legal; otherwise it is refused by name. -/
theorem decode_cases (op : Byte) :
    (legalOpcode op = true ∧ ∃ i, decode op = .ok i ∧ encode i = op) ∨
      (legalOpcode op = false ∧ decode op = .error (.illegalCommand op)) := by
  have key : ∀ op : Byte,
      (match decode op with
        | .ok i => legalOpcode op && decide (encode i = op)
        | .error e => !legalOpcode op && decide (e = .illegalCommand op)) = true := by decide
  have h := key op
  cases hd : decode op with
  | ok i => simp [hd] at h; exact .inl ⟨h.1, i, rfl, h.2⟩
  | error e => simp [hd] at h; exact .inr ⟨h.1, by rw [h.2]⟩

/-- What the decoder reads from an encoded instruction. -/
theorem legal_encode (i : Instr) : legalOpcode (encode i) = true := by
  cases i <;> decide

/-- The letters of each mnemonic. -/
theorem mnemonic_chars :
    Instr.ldcal.mnemonic.toList = ['L', 'D', 'C', 'A', 'L'] ∧ Instr.rdfrm.mnemonic.toList = ['R', 'D', 'F', 'R', 'M'] ∧
    Instr.cmpt.mnemonic.toList = ['C', 'M', 'P', 'T'] ∧ Instr.cmpp.mnemonic.toList = ['C', 'M', 'P', 'P'] ∧
    Instr.cmph.mnemonic.toList = ['C', 'M', 'P', 'H'] := by simp [Instr.mnemonic]

/-- The letters of each pseudo-instruction's name. -/
theorem pseudo_chars :
    Pseudo.startup.mnemonic.toList = ['S', 'T', 'A', 'R', 'T', 'U', 'P'] ∧
    Pseudo.cycle.mnemonic.toList = ['C', 'Y', 'C', 'L', 'E'] ∧ Pseudo.temp.mnemonic.toList = ['T', 'E', 'M', 'P'] := by simp [Pseudo.mnemonic]

end Sys2Proof
end

