-- ==== Sys2Proof/Laws/Mac.lean ====
section
/-! SUPPORT. The MAC unit's primitives: the bounds a proof about a pipeline needs. -/

namespace Sys2Proof.Machine

/-- The two inequalities that say all about `asr`. -/
theorem asr_bounds (a : Int) (n : Nat) : asr a n * 2 ^ n ≤ a ∧ a < asr a n * 2 ^ n + 2 ^ n := by
  have hp : (0 : Int) < 2 ^ n := by positivity
  have h := Int.emod_add_mul_ediv a (2 ^ n)
  have h0 := Int.emod_nonneg a hp.ne'
  have h1 := Int.emod_lt_of_pos a hp
  unfold asr
  constructor <;> nlinarith

/-- `asr` is monotone. -/
theorem asr_mono {a b : Int} (n : Nat) (h : a ≤ b) : asr a n ≤ asr b n :=
  Int.ediv_le_ediv (by positivity) h

/-- A lower bound passes through `asr`. -/
theorem le_asr {a k : Int} {n : Nat} (h : k * 2 ^ n ≤ a) : k ≤ asr a n :=
  (Int.le_ediv_iff_mul_le (by positivity)).mpr h

/-- An upper bound passes through `asr`. -/
theorem asr_le {a k : Int} {n : Nat} (h : a < (k + 1) * 2 ^ n) : asr a n ≤ k := by
  have := (Int.ediv_lt_iff_lt_mul (by positivity : (0 : Int) < 2 ^ n)).mpr h
  unfold asr
  omega

/-- A product of two bounded factors is bounded by the product of the bounds. -/
theorem abs_mul_le {a b A B : Int} (ha : |a| ≤ A) (hb : |b| ≤ B) : |a * b| ≤ A * B := by
  rw [abs_mul]
  exact mul_le_mul ha hb (abs_nonneg b) ((abs_nonneg a).trans ha)

/-- Division toward zero never grows the magnitude. -/
theorem abs_tdiv_le (a b : Int) : |tdiv a b| ≤ |a| := by
  unfold tdiv
  rw [Int.abs_eq_natAbs, Int.abs_eq_natAbs, Int.natAbs_tdiv]
  exact_mod_cast Nat.div_le_self _ _

/-- A clamped value lies in the closed range. -/
theorem clamp_mem {lo hi : Int} (h : lo ≤ hi) (a : Int) : lo ≤ clamp lo hi a ∧ clamp lo hi a ≤ hi := by
  unfold clamp
  split
  · exact ⟨le_refl _, h⟩
  · split <;> omega

/-- The clamp leaves a value of the range as it is. -/
theorem clamp_of_mem {lo hi a : Int} (h₁ : lo ≤ a) (h₂ : a ≤ hi) : clamp lo hi a = a := by
  unfold clamp
  rw [if_neg (by omega), if_neg (by omega)]

/-- A narrowed value is a 32-bit number. -/
theorem wrapU32_mem (a : Int) : 0 ≤ wrapU32 a ∧ wrapU32 a < 2 ^ 32 := by
  unfold wrapU32
  omega

/-- A 32-bit two's-complement register gives back a number of its range. -/
theorem toInt_ofInt32 {a : Int} (h₁ : -2 ^ 31 ≤ a) (h₂ : a < 2 ^ 31) : (BitVec.ofInt 32 a).toInt = a := by
  rw [BitVec.toInt_ofInt, Int.bmod_def]
  split <;> omega

/-- An unsigned 32-bit register gives back a number of its range. -/
theorem toNat_ofInt32 {a : Int} (h₁ : 0 ≤ a) (h₂ : a < 2 ^ 32) : ((BitVec.ofInt 32 a).toNat : Int) = a := by
  rw [BitVec.toNat_ofInt]
  omega

end Sys2Proof.Machine
end

