-- ==== Sys2Proof/Laws/State.lean ====
section
/-! SUPPORT. One lemma per field per update of State: what each named update writes and what it leaves. -/

namespace Sys2Proof.Machine

variable (s : State)

@[simp] theorem State.setCoef_coef (c : Coefs) : (State.setCoef c s).coef = c := rfl
@[simp] theorem State.setCoef_adcP (c : Coefs) : (State.setCoef c s).adcP = s.adcP := rfl
@[simp] theorem State.setCoef_adcT (c : Coefs) : (State.setCoef c s).adcT = s.adcT := rfl
@[simp] theorem State.setCoef_adcH (c : Coefs) : (State.setCoef c s).adcH = s.adcH := rfl
@[simp] theorem State.setCoef_tFine (c : Coefs) : (State.setCoef c s).tFine = s.tFine := rfl
@[simp] theorem State.setCoef_tOut (c : Coefs) : (State.setCoef c s).tOut = s.tOut := rfl
@[simp] theorem State.setCoef_pOut (c : Coefs) : (State.setCoef c s).pOut = s.pOut := rfl
@[simp] theorem State.setCoef_hOut (c : Coefs) : (State.setCoef c s).hOut = s.hOut := rfl
@[simp] theorem State.setCoef_phase (c : Coefs) : (State.setCoef c s).phase = s.phase := rfl
@[simp] theorem State.setCoef_err (c : Coefs) : (State.setCoef c s).err = s.err := rfl
@[simp] theorem State.setCoef_waiting (c : Coefs) : (State.setCoef c s).waiting = s.waiting := rfl
@[simp] theorem State.setCoef_host (c : Coefs) : (State.setCoef c s).host = s.host := rfl
@[simp] theorem State.setCoef_transport (c : Coefs) : (State.setCoef c s).transport = s.transport := rfl
@[simp] theorem State.setCoef_reads (c : Coefs) : (State.setCoef c s).reads = s.reads := rfl
@[simp] theorem State.setCoef_hostData (c : Coefs) : (State.setCoef c s).hostData = s.hostData := rfl
@[simp] theorem State.setCoef_draws (c : Coefs) : (State.setCoef c s).draws = s.draws := rfl

@[simp] theorem State.setRaw_coef (p t : BitVec 20) (h : BitVec 16) : (State.setRaw p t h s).coef = s.coef := rfl
@[simp] theorem State.setRaw_adcP (p t : BitVec 20) (h : BitVec 16) : (State.setRaw p t h s).adcP = p := rfl
@[simp] theorem State.setRaw_adcT (p t : BitVec 20) (h : BitVec 16) : (State.setRaw p t h s).adcT = t := rfl
@[simp] theorem State.setRaw_adcH (p t : BitVec 20) (h : BitVec 16) : (State.setRaw p t h s).adcH = h := rfl
@[simp] theorem State.setRaw_tFine (p t : BitVec 20) (h : BitVec 16) : (State.setRaw p t h s).tFine = s.tFine := rfl
@[simp] theorem State.setRaw_tOut (p t : BitVec 20) (h : BitVec 16) : (State.setRaw p t h s).tOut = s.tOut := rfl
@[simp] theorem State.setRaw_pOut (p t : BitVec 20) (h : BitVec 16) : (State.setRaw p t h s).pOut = s.pOut := rfl
@[simp] theorem State.setRaw_hOut (p t : BitVec 20) (h : BitVec 16) : (State.setRaw p t h s).hOut = s.hOut := rfl
@[simp] theorem State.setRaw_phase (p t : BitVec 20) (h : BitVec 16) : (State.setRaw p t h s).phase = s.phase := rfl
@[simp] theorem State.setRaw_err (p t : BitVec 20) (h : BitVec 16) : (State.setRaw p t h s).err = s.err := rfl
@[simp] theorem State.setRaw_waiting (p t : BitVec 20) (h : BitVec 16) : (State.setRaw p t h s).waiting = s.waiting := rfl
@[simp] theorem State.setRaw_host (p t : BitVec 20) (h : BitVec 16) : (State.setRaw p t h s).host = s.host := rfl
@[simp] theorem State.setRaw_transport (p t : BitVec 20) (h : BitVec 16) : (State.setRaw p t h s).transport = s.transport := rfl
@[simp] theorem State.setRaw_reads (p t : BitVec 20) (h : BitVec 16) : (State.setRaw p t h s).reads = s.reads := rfl
@[simp] theorem State.setRaw_hostData (p t : BitVec 20) (h : BitVec 16) : (State.setRaw p t h s).hostData = s.hostData := rfl
@[simp] theorem State.setRaw_draws (p t : BitVec 20) (h : BitVec 16) : (State.setRaw p t h s).draws = s.draws := rfl

@[simp] theorem State.setTemp_coef (t tf : Int) : (State.setTemp t tf s).coef = s.coef := rfl
@[simp] theorem State.setTemp_adcP (t tf : Int) : (State.setTemp t tf s).adcP = s.adcP := rfl
@[simp] theorem State.setTemp_adcT (t tf : Int) : (State.setTemp t tf s).adcT = s.adcT := rfl
@[simp] theorem State.setTemp_adcH (t tf : Int) : (State.setTemp t tf s).adcH = s.adcH := rfl
@[simp] theorem State.setTemp_tFine (t tf : Int) : (State.setTemp t tf s).tFine = BitVec.ofInt 32 tf := rfl
@[simp] theorem State.setTemp_tOut (t tf : Int) : (State.setTemp t tf s).tOut = BitVec.ofInt 32 t := rfl
@[simp] theorem State.setTemp_pOut (t tf : Int) : (State.setTemp t tf s).pOut = s.pOut := rfl
@[simp] theorem State.setTemp_hOut (t tf : Int) : (State.setTemp t tf s).hOut = s.hOut := rfl
@[simp] theorem State.setTemp_phase (t tf : Int) : (State.setTemp t tf s).phase = s.phase := rfl
@[simp] theorem State.setTemp_err (t tf : Int) : (State.setTemp t tf s).err = s.err := rfl
@[simp] theorem State.setTemp_waiting (t tf : Int) : (State.setTemp t tf s).waiting = s.waiting := rfl
@[simp] theorem State.setTemp_host (t tf : Int) : (State.setTemp t tf s).host = s.host := rfl
@[simp] theorem State.setTemp_transport (t tf : Int) : (State.setTemp t tf s).transport = s.transport := rfl
@[simp] theorem State.setTemp_reads (t tf : Int) : (State.setTemp t tf s).reads = s.reads := rfl
@[simp] theorem State.setTemp_hostData (t tf : Int) : (State.setTemp t tf s).hostData = s.hostData := rfl
@[simp] theorem State.setTemp_draws (t tf : Int) : (State.setTemp t tf s).draws = s.draws := rfl

@[simp] theorem State.setPress_coef (p : Int) : (State.setPress p s).coef = s.coef := rfl
@[simp] theorem State.setPress_adcP (p : Int) : (State.setPress p s).adcP = s.adcP := rfl
@[simp] theorem State.setPress_adcT (p : Int) : (State.setPress p s).adcT = s.adcT := rfl
@[simp] theorem State.setPress_adcH (p : Int) : (State.setPress p s).adcH = s.adcH := rfl
@[simp] theorem State.setPress_tFine (p : Int) : (State.setPress p s).tFine = s.tFine := rfl
@[simp] theorem State.setPress_tOut (p : Int) : (State.setPress p s).tOut = s.tOut := rfl
@[simp] theorem State.setPress_pOut (p : Int) : (State.setPress p s).pOut = BitVec.ofInt 32 p := rfl
@[simp] theorem State.setPress_hOut (p : Int) : (State.setPress p s).hOut = s.hOut := rfl
@[simp] theorem State.setPress_phase (p : Int) : (State.setPress p s).phase = s.phase := rfl
@[simp] theorem State.setPress_err (p : Int) : (State.setPress p s).err = s.err := rfl
@[simp] theorem State.setPress_waiting (p : Int) : (State.setPress p s).waiting = s.waiting := rfl
@[simp] theorem State.setPress_host (p : Int) : (State.setPress p s).host = s.host := rfl
@[simp] theorem State.setPress_transport (p : Int) : (State.setPress p s).transport = s.transport := rfl
@[simp] theorem State.setPress_reads (p : Int) : (State.setPress p s).reads = s.reads := rfl
@[simp] theorem State.setPress_hostData (p : Int) : (State.setPress p s).hostData = s.hostData := rfl
@[simp] theorem State.setPress_draws (p : Int) : (State.setPress p s).draws = s.draws := rfl

@[simp] theorem State.setHum_coef (h : Int) : (State.setHum h s).coef = s.coef := rfl
@[simp] theorem State.setHum_adcP (h : Int) : (State.setHum h s).adcP = s.adcP := rfl
@[simp] theorem State.setHum_adcT (h : Int) : (State.setHum h s).adcT = s.adcT := rfl
@[simp] theorem State.setHum_adcH (h : Int) : (State.setHum h s).adcH = s.adcH := rfl
@[simp] theorem State.setHum_tFine (h : Int) : (State.setHum h s).tFine = s.tFine := rfl
@[simp] theorem State.setHum_tOut (h : Int) : (State.setHum h s).tOut = s.tOut := rfl
@[simp] theorem State.setHum_pOut (h : Int) : (State.setHum h s).pOut = s.pOut := rfl
@[simp] theorem State.setHum_hOut (h : Int) : (State.setHum h s).hOut = BitVec.ofInt 32 h := rfl
@[simp] theorem State.setHum_phase (h : Int) : (State.setHum h s).phase = s.phase := rfl
@[simp] theorem State.setHum_err (h : Int) : (State.setHum h s).err = s.err := rfl
@[simp] theorem State.setHum_waiting (h : Int) : (State.setHum h s).waiting = s.waiting := rfl
@[simp] theorem State.setHum_host (h : Int) : (State.setHum h s).host = s.host := rfl
@[simp] theorem State.setHum_transport (h : Int) : (State.setHum h s).transport = s.transport := rfl
@[simp] theorem State.setHum_reads (h : Int) : (State.setHum h s).reads = s.reads := rfl
@[simp] theorem State.setHum_hostData (h : Int) : (State.setHum h s).hostData = s.hostData := rfl
@[simp] theorem State.setHum_draws (h : Int) : (State.setHum h s).draws = s.draws := rfl

@[simp] theorem State.finish_coef (p : Phase) : (State.finish p s).coef = s.coef := rfl
@[simp] theorem State.finish_adcP (p : Phase) : (State.finish p s).adcP = s.adcP := rfl
@[simp] theorem State.finish_adcT (p : Phase) : (State.finish p s).adcT = s.adcT := rfl
@[simp] theorem State.finish_adcH (p : Phase) : (State.finish p s).adcH = s.adcH := rfl
@[simp] theorem State.finish_tFine (p : Phase) : (State.finish p s).tFine = s.tFine := rfl
@[simp] theorem State.finish_tOut (p : Phase) : (State.finish p s).tOut = s.tOut := rfl
@[simp] theorem State.finish_pOut (p : Phase) : (State.finish p s).pOut = s.pOut := rfl
@[simp] theorem State.finish_hOut (p : Phase) : (State.finish p s).hOut = s.hOut := rfl
@[simp] theorem State.finish_phase (p : Phase) : (State.finish p s).phase = p := rfl
@[simp] theorem State.finish_err (p : Phase) : (State.finish p s).err = .noError := rfl
@[simp] theorem State.finish_waiting (p : Phase) : (State.finish p s).waiting = s.waiting := rfl
@[simp] theorem State.finish_host (p : Phase) : (State.finish p s).host = s.host := rfl
@[simp] theorem State.finish_transport (p : Phase) : (State.finish p s).transport = s.transport := rfl
@[simp] theorem State.finish_reads (p : Phase) : (State.finish p s).reads = s.reads := rfl
@[simp] theorem State.finish_hostData (p : Phase) : (State.finish p s).hostData = s.hostData := rfl
@[simp] theorem State.finish_draws (p : Phase) : (State.finish p s).draws = s.draws := rfl

@[simp] theorem State.raise_coef (e : ErrCode) : (State.raise e s).coef = s.coef := rfl
@[simp] theorem State.raise_adcP (e : ErrCode) : (State.raise e s).adcP = s.adcP := rfl
@[simp] theorem State.raise_adcT (e : ErrCode) : (State.raise e s).adcT = s.adcT := rfl
@[simp] theorem State.raise_adcH (e : ErrCode) : (State.raise e s).adcH = s.adcH := rfl
@[simp] theorem State.raise_tFine (e : ErrCode) : (State.raise e s).tFine = s.tFine := rfl
@[simp] theorem State.raise_tOut (e : ErrCode) : (State.raise e s).tOut = s.tOut := rfl
@[simp] theorem State.raise_pOut (e : ErrCode) : (State.raise e s).pOut = s.pOut := rfl
@[simp] theorem State.raise_hOut (e : ErrCode) : (State.raise e s).hOut = s.hOut := rfl
@[simp] theorem State.raise_phase (e : ErrCode) : (State.raise e s).phase = s.phase := rfl
@[simp] theorem State.raise_err (e : ErrCode) : (State.raise e s).err = e := rfl
@[simp] theorem State.raise_waiting (e : ErrCode) : (State.raise e s).waiting = s.waiting := rfl
@[simp] theorem State.raise_host (e : ErrCode) : (State.raise e s).host = s.host := rfl
@[simp] theorem State.raise_transport (e : ErrCode) : (State.raise e s).transport = s.transport := rfl
@[simp] theorem State.raise_reads (e : ErrCode) : (State.raise e s).reads = s.reads := rfl
@[simp] theorem State.raise_hostData (e : ErrCode) : (State.raise e s).hostData = s.hostData := rfl
@[simp] theorem State.raise_draws (e : ErrCode) : (State.raise e s).draws = s.draws := rfl

@[simp] theorem State.endCycle_coef : (State.endCycle s).coef = s.coef := rfl
@[simp] theorem State.endCycle_adcP : (State.endCycle s).adcP = s.adcP := rfl
@[simp] theorem State.endCycle_adcT : (State.endCycle s).adcT = s.adcT := rfl
@[simp] theorem State.endCycle_adcH : (State.endCycle s).adcH = s.adcH := rfl
@[simp] theorem State.endCycle_tFine : (State.endCycle s).tFine = s.tFine := rfl
@[simp] theorem State.endCycle_tOut : (State.endCycle s).tOut = s.tOut := rfl
@[simp] theorem State.endCycle_pOut : (State.endCycle s).pOut = s.pOut := rfl
@[simp] theorem State.endCycle_hOut : (State.endCycle s).hOut = s.hOut := rfl
@[simp] theorem State.endCycle_phase : (State.endCycle s).phase = .idle := rfl
@[simp] theorem State.endCycle_err : (State.endCycle s).err = s.err := rfl
@[simp] theorem State.endCycle_waiting : (State.endCycle s).waiting = s.waiting := rfl
@[simp] theorem State.endCycle_host : (State.endCycle s).host = s.host := rfl
@[simp] theorem State.endCycle_transport : (State.endCycle s).transport = s.transport := rfl
@[simp] theorem State.endCycle_reads : (State.endCycle s).reads = s.reads := rfl
@[simp] theorem State.endCycle_hostData : (State.endCycle s).hostData = s.hostData := rfl
@[simp] theorem State.endCycle_draws : (State.endCycle s).draws = s.draws := rfl

@[simp] theorem State.wait_coef : (State.wait s).coef = s.coef := rfl
@[simp] theorem State.wait_adcP : (State.wait s).adcP = s.adcP := rfl
@[simp] theorem State.wait_adcT : (State.wait s).adcT = s.adcT := rfl
@[simp] theorem State.wait_adcH : (State.wait s).adcH = s.adcH := rfl
@[simp] theorem State.wait_tFine : (State.wait s).tFine = s.tFine := rfl
@[simp] theorem State.wait_tOut : (State.wait s).tOut = s.tOut := rfl
@[simp] theorem State.wait_pOut : (State.wait s).pOut = s.pOut := rfl
@[simp] theorem State.wait_hOut : (State.wait s).hOut = s.hOut := rfl
@[simp] theorem State.wait_phase : (State.wait s).phase = s.phase := rfl
@[simp] theorem State.wait_err : (State.wait s).err = s.err := rfl
@[simp] theorem State.wait_waiting : (State.wait s).waiting = true := rfl
@[simp] theorem State.wait_host : (State.wait s).host = s.host := rfl
@[simp] theorem State.wait_transport : (State.wait s).transport = s.transport := rfl
@[simp] theorem State.wait_reads : (State.wait s).reads = s.reads := rfl
@[simp] theorem State.wait_hostData : (State.wait s).hostData = s.hostData := rfl
@[simp] theorem State.wait_draws : (State.wait s).draws = s.draws := rfl

@[simp] theorem State.afterRead_coef (a : Byte) (n : Nat) : (State.afterRead a n s).coef = s.coef := rfl
@[simp] theorem State.afterRead_adcP (a : Byte) (n : Nat) : (State.afterRead a n s).adcP = s.adcP := rfl
@[simp] theorem State.afterRead_adcT (a : Byte) (n : Nat) : (State.afterRead a n s).adcT = s.adcT := rfl
@[simp] theorem State.afterRead_adcH (a : Byte) (n : Nat) : (State.afterRead a n s).adcH = s.adcH := rfl
@[simp] theorem State.afterRead_tFine (a : Byte) (n : Nat) : (State.afterRead a n s).tFine = s.tFine := rfl
@[simp] theorem State.afterRead_tOut (a : Byte) (n : Nat) : (State.afterRead a n s).tOut = s.tOut := rfl
@[simp] theorem State.afterRead_pOut (a : Byte) (n : Nat) : (State.afterRead a n s).pOut = s.pOut := rfl
@[simp] theorem State.afterRead_hOut (a : Byte) (n : Nat) : (State.afterRead a n s).hOut = s.hOut := rfl
@[simp] theorem State.afterRead_phase (a : Byte) (n : Nat) : (State.afterRead a n s).phase = s.phase := rfl
@[simp] theorem State.afterRead_err (a : Byte) (n : Nat) : (State.afterRead a n s).err = s.err := rfl
@[simp] theorem State.afterRead_waiting (a : Byte) (n : Nat) : (State.afterRead a n s).waiting = s.waiting := rfl
@[simp] theorem State.afterRead_host (a : Byte) (n : Nat) : (State.afterRead a n s).host = s.host := rfl
@[simp] theorem State.afterRead_transport (a : Byte) (n : Nat) : (State.afterRead a n s).transport = s.transport.tail := rfl
@[simp] theorem State.afterRead_reads (a : Byte) (n : Nat) : (State.afterRead a n s).reads = s.reads ++ [⟨a, n⟩] := rfl
@[simp] theorem State.afterRead_hostData (a : Byte) (n : Nat) : (State.afterRead a n s).hostData = s.hostData := rfl
@[simp] theorem State.afterRead_draws (a : Byte) (n : Nat) : (State.afterRead a n s).draws = if s.transport.isEmpty then s.draws + 1 else s.draws := rfl

@[simp] theorem State.resetCore_coef : (State.resetCore s).coef = s.coef := rfl
@[simp] theorem State.resetCore_adcP : (State.resetCore s).adcP = s.adcP := rfl
@[simp] theorem State.resetCore_adcT : (State.resetCore s).adcT = s.adcT := rfl
@[simp] theorem State.resetCore_adcH : (State.resetCore s).adcH = s.adcH := rfl
@[simp] theorem State.resetCore_tFine : (State.resetCore s).tFine = s.tFine := rfl
@[simp] theorem State.resetCore_tOut : (State.resetCore s).tOut = s.tOut := rfl
@[simp] theorem State.resetCore_pOut : (State.resetCore s).pOut = s.pOut := rfl
@[simp] theorem State.resetCore_hOut : (State.resetCore s).hOut = s.hOut := rfl
@[simp] theorem State.resetCore_phase : (State.resetCore s).phase = .nocal := rfl
@[simp] theorem State.resetCore_err : (State.resetCore s).err = .noError := rfl
@[simp] theorem State.resetCore_waiting : (State.resetCore s).waiting = false := rfl
@[simp] theorem State.resetCore_host : (State.resetCore s).host = s.host := rfl
@[simp] theorem State.resetCore_transport : (State.resetCore s).transport = s.transport := rfl
@[simp] theorem State.resetCore_reads : (State.resetCore s).reads = s.reads := rfl
@[simp] theorem State.resetCore_hostData : (State.resetCore s).hostData = s.hostData := rfl
@[simp] theorem State.resetCore_draws : (State.resetCore s).draws = s.draws := rfl

@[simp] theorem State.popHost_coef : (State.popHost s).coef = s.coef := rfl
@[simp] theorem State.popHost_adcP : (State.popHost s).adcP = s.adcP := rfl
@[simp] theorem State.popHost_adcT : (State.popHost s).adcT = s.adcT := rfl
@[simp] theorem State.popHost_adcH : (State.popHost s).adcH = s.adcH := rfl
@[simp] theorem State.popHost_tFine : (State.popHost s).tFine = s.tFine := rfl
@[simp] theorem State.popHost_tOut : (State.popHost s).tOut = s.tOut := rfl
@[simp] theorem State.popHost_pOut : (State.popHost s).pOut = s.pOut := rfl
@[simp] theorem State.popHost_hOut : (State.popHost s).hOut = s.hOut := rfl
@[simp] theorem State.popHost_phase : (State.popHost s).phase = s.phase := rfl
@[simp] theorem State.popHost_err : (State.popHost s).err = s.err := rfl
@[simp] theorem State.popHost_waiting : (State.popHost s).waiting = s.waiting := rfl
@[simp] theorem State.popHost_host : (State.popHost s).host = s.host.tail := rfl
@[simp] theorem State.popHost_transport : (State.popHost s).transport = s.transport := rfl
@[simp] theorem State.popHost_reads : (State.popHost s).reads = s.reads := rfl
@[simp] theorem State.popHost_hostData : (State.popHost s).hostData = s.hostData := rfl
@[simp] theorem State.popHost_draws : (State.popHost s).draws = s.draws := rfl

end Sys2Proof.Machine
end

