-- ==== Sys2Proof/Laws/Ops.lean ====
section
/-! SUPPORT. What each shared operation and each meaning can do, said once. -/

namespace Sys2Proof.Machine

/-- A scripted answer is the one the core gets. -/
theorem nextAnswer_cons {s : State} {a : Answer} {rest : List Answer} (n : Nat) (h : s.transport = a :: rest) :
    s.nextAnswer n = a := by
  simp [State.nextAnswer, h]

/-- Past the script the answer is free. -/
theorem nextAnswer_nil {s : State} (n : Nat) (h : s.transport = []) : s.nextAnswer n = freeAnswer s.draws n := by
  simp [State.nextAnswer, h]

/-- An unscripted answer is never silence. -/
theorem freeAnswer_ne_never (k n : Nat) : freeAnswer k n ≠ Answer.never := by
  unfold freeAnswer
  split <;> simp

/-- Bytes of the right length are what the core gets. -/
theorem outcome_bytes {n : Nat} {b : List Byte} (h : b.length = n) : (Answer.bytes b).outcome n = .got b := by
  simp [Answer.outcome, h]

/-- A failed answer. -/
@[simp] theorem outcome_failure (n : Nat) : Answer.failure.outcome n = .failed := rfl

/-- No answer. -/
@[simp] theorem outcome_never (n : Nat) : Answer.never.outcome n = .silent := rfl

/-- Only a `never` is silent. -/
theorem outcome_silent_iff (n : Nat) (a : Answer) : a.outcome n = .silent ↔ a = .never := by
  cases a with
  | bytes b => by_cases h : b.length = n <;> simp [Answer.outcome, h]
  | failure => simp
  | never => simp

/-- An unscripted read fails or gets exactly the bytes it asked for. -/
theorem unscripted_outcome {s : State} (n : Nat) (h : s.transport = []) :
    (s.nextAnswer n).outcome n = .failed ∨ ∃ b, b.length = n ∧ (s.nextAnswer n).outcome n = .got b := by
  rw [nextAnswer_nil n h]
  unfold freeAnswer
  split
  · exact .inl rfl
  · exact .inr ⟨_, List.length_ofFn, outcome_bytes List.length_ofFn⟩

/-- One read takes one scripted answer, or counts one free draw past the script. -/
theorem afterRead_eq (addr : Byte) (n : Nat) (s : State) :
    s.afterRead addr n =
      { s with transport := s.transport.drop 1, draws := s.draws + (1 - s.transport.length), reads := s.reads ++ [⟨addr, n⟩] } := by
  cases h : s.transport <;> simp [State.afterRead, h]

/-- What the core gets has the length it asked for. -/
theorem length_of_got {n : Nat} {a : Answer} {b : List Byte} (h : a.outcome n = .got b) : b.length = n := by
  cases a with
  | bytes c =>
    by_cases hc : c.length = n
    · simp only [Answer.outcome, hc, if_true, ReadOutcome.got.injEq] at h
      exact h ▸ hc
    · simp [Answer.outcome, hc] at h
  | failure => simp at h
  | never => simp at h

/-- A host read touches the port's word and the counter of free values, and nothing else. -/
theorem hostRead_cases (k : Nat) (s : State) :
    (∃ w, s.hostWord k = some w ∧ s.hostRead k = { s with hostData := w }) ∨
      (s.hostWord k = none ∧ s.hostRead k = { s with hostData := Config.freeWord s.draws, draws := s.draws + 1 }) := by
  unfold State.hostRead
  cases h : s.hostWord k <;> simp

/-- An admitted body runs. -/
@[simp] theorem require_true (body : State → State) (s : State) : s.require true body = body s := rfl

/-- A command that is not admitted changes `ERR` only. -/
@[simp] theorem require_false (body : State → State) (s : State) : s.require false body = s.raise .sequenceError := rfl

/-- The body of each instruction. -/
def bodyOf : Instr → State → State
  | .ldcal => ldcalBody
  | .rdfrm => rdfrmBody
  | .cmpt => cmptBody
  | .cmpp => cmppBody
  | .cmph => cmphBody

/-- Every meaning is its body behind its admission test. -/
theorem exec_eq_require (i : Instr) (s : State) : exec i s = .next (s.require (admits i s.phase) (bodyOf i)) := by
  cases i <;> rfl

/-- What an admitted `LDCAL` can do. -/
theorem ldcalBody_cases (s : State) :
    (∃ s₁, (s₁ = s.afterRead blockAAddr blockALen ∨
        s₁ = (s.afterRead blockAAddr blockALen).afterRead blockBAddr blockBLen) ∧
        (ldcalBody s = s₁.wait ∨ ldcalBody s = s₁.raise .readFailed)) ∨
      (∃ A B, A.length = blockALen ∧ B.length = blockBLen ∧
        ldcalBody s = (((s.afterRead blockAAddr blockALen).afterRead blockBAddr blockBLen).setCoef (caldec A B)).finish .idle) := by
  unfold ldcalBody memRead
  cases h : (s.nextAnswer blockALen).outcome blockALen with
  | silent => exact .inl ⟨_, .inl rfl, .inl rfl⟩
  | failed => exact .inl ⟨_, .inl rfl, .inr rfl⟩
  | got A =>
    dsimp only
    cases h' : ((s.afterRead blockAAddr blockALen).nextAnswer blockBLen).outcome blockBLen with
    | silent => exact .inl ⟨_, .inr rfl, .inl rfl⟩
    | failed => exact .inl ⟨_, .inr rfl, .inr rfl⟩
    | got B => exact .inr ⟨A, B, length_of_got h, length_of_got h', rfl⟩

/-- What an admitted `RDFRM` can do. -/
theorem rdfrmBody_cases (s : State) :
    rdfrmBody s = (s.afterRead frameAddr frameLen).wait ∨
      rdfrmBody s = (s.afterRead frameAddr frameLen).endCycle.raise .readFailed ∨
      (∃ F, F.length = frameLen ∧
        rdfrmBody s = ((s.afterRead frameAddr frameLen).endCycle.setRaw (rawP F) (rawT F) (rawH F)).finish .frame) := by
  unfold rdfrmBody memRead
  cases h : (s.nextAnswer frameLen).outcome frameLen with
  | silent => exact .inl rfl
  | failed => exact .inr (.inl rfl)
  | got F => exact .inr (.inr ⟨F, length_of_got h, rfl⟩)

end Sys2Proof.Machine
end

