-- ==== Sys2Proof/Laws/PerInstr.lean ====
section
/-! SUPPORT. Statements made per instruction: every instruction is well formed and its byte is a legal opcode. -/

namespace Sys2Proof.Laws.OpcodeLegal

/-- The instruction is well formed (spec/30_encoding.md R90) and its byte is one of 0x01..0x05 (R91). -/
def Statement (i : Instr) : Prop := i.wf = true ∧ legalOpcode (encode i) = true

theorem ldcal : Statement .ldcal := ⟨rfl, legal_encode _⟩
theorem rdfrm : Statement .rdfrm := ⟨rfl, legal_encode _⟩
theorem cmpt : Statement .cmpt := ⟨rfl, legal_encode _⟩
theorem cmpp : Statement .cmpp := ⟨rfl, legal_encode _⟩
theorem cmph : Statement .cmph := ⟨rfl, legal_encode _⟩

end Sys2Proof.Laws.OpcodeLegal
end

