-- ==== Sys2Proof/Laws/Run.lean ====
section
/-! SUPPORT. A run, one step at a time. -/

namespace Sys2Proof.Machine

/-- A run of any machine of the host's interface goes on from the next state. -/
theorem coreRun_next (M : Host.Core) (n : Nat) {s t : M.State} (h : M.step s = .next t) : M.run (n + 1) s = M.run n t := by
  simp [Host.Core.run, h]

/-- A run of any machine of the host's interface ends at a fault. -/
theorem coreRun_fault (M : Host.Core) (n : Nat) {s : M.State} {f : M.Fault} (h : M.step s = .fault f) :
    M.run (n + 1) s = .fault f := by
  simp [Host.Core.run, h]

/-- No step. -/
@[simp] theorem run_zero (s : State) : s.run 0 = .next s := rfl

/-- One step, then the rest. -/
theorem run_next {s t : State} (n : Nat) (h : step s = .next t) : s.run (n + 1) = t.run n :=
  coreRun_next Sys2Proof.core n h

/-- A fault ends the run. -/
theorem run_fault {s : State} {f : Fault} (n : Nat) (h : step s = .fault f) : s.run (n + 1) = .fault f :=
  coreRun_fault Sys2Proof.core n h

end Sys2Proof.Machine
end

