-- ==== Sys2Proof/Laws/Step.lean ====
section
/-! SUPPORT. One step: each case of the next host action, and the inversion lemma. -/

namespace Sys2Proof.Machine

/-- With nothing to do the machine holds its state. -/
theorem step_idle {s : State} (hw : s.waiting = false) (hh : s.host = []) : step s = .next s := by
  simp [step, State.fetch, hw, hh]

/-- The reset signal, whether or not an operation waits. -/
theorem step_reset {s : State} {rest : List HostAction} (hh : s.host = .reset :: rest) :
    step s = .next s.popHost.resetCore := by
  cases hw : s.waiting <;> simp [step, State.fetch, hw, hh]

/-- A host read. -/
theorem step_read {s : State} {k : Nat} {rest : List HostAction} (hw : s.waiting = false) (hh : s.host = .read k :: rest) :
    step s = .next (s.popHost.hostRead k) := by
  simp [step, State.fetch, hw, hh]

/-- A host write to an index other than `CMD`. -/
theorem step_write_other {s : State} {k : Nat} {w : Word} {rest : List HostAction} (hw : s.waiting = false)
    (hh : s.host = .write k w :: rest) (hk : k ≠ 0) : step s = .next s.popHost := by
  simp [step, State.fetch, hw, hh, hk]

/-- A command byte that is none: it is taken as the fault `IllegalCommand`. -/
theorem step_illegal {s : State} {w : Word} {rest : List HostAction} (hw : s.waiting = false)
    (hh : s.host = .write 0 w :: rest) (hd : legalOpcode (cmdByte w) = false) :
    step s = .next (takeIllegal s.popHost) := by
  obtain ⟨h, -⟩ | ⟨-, h⟩ := decode_cases (cmdByte w)
  · simp [h] at hd
  · simp [step, State.fetch, hw, hh, h]

/-- A command byte that decodes: the instruction runs. -/
theorem step_decoded {s : State} {w : Word} {rest : List HostAction} {i : Instr} (hw : s.waiting = false)
    (hh : s.host = .write 0 w :: rest) (hd : decode (cmdByte w) = .ok i) : step s = exec i s.popHost := by
  simp [step, State.fetch, hw, hh, hd]

/-- A waiting machine without a reset goes no further. -/
theorem step_waiting {s : State} (hw : s.waiting = true) (hh : ∀ rest, s.host ≠ .reset :: rest) :
    step s = .fault .transportNeverAnswers ∨ step s = .refused .hostHeldOff := by
  unfold step State.fetch
  rw [if_pos hw]
  rcases h : s.host with _ | ⟨a, rest⟩
  · exact .inl rfl
  · cases a with
    | reset => exact absurd h (hh rest)
    | write k w => exact .inr rfl
    | read k => exact .inr rfl

/-- Everything a step that answers a next state can have done. -/
theorem step_cases {s t : State} (h : step s = .next t) :
    (s.waiting = false ∧ s.host = [] ∧ t = s) ∨
    (∃ rest, s.host = .reset :: rest ∧ t = s.popHost.resetCore) ∨
    (s.waiting = false ∧ ∃ k rest, s.host = .read k :: rest ∧ t = s.popHost.hostRead k) ∨
    (s.waiting = false ∧ ∃ k w rest, s.host = .write k w :: rest ∧ k ≠ 0 ∧ t = s.popHost) ∨
    (s.waiting = false ∧ ∃ w rest, s.host = .write 0 w :: rest ∧ legalOpcode (cmdByte w) = false ∧ t = takeIllegal s.popHost) ∨
    (s.waiting = false ∧ ∃ w rest i, s.host = .write 0 w :: rest ∧ cmdByte w = encode i ∧ decode (cmdByte w) = .ok i ∧
      t = s.popHost.require (admits i s.phase) (bodyOf i)) := by
  rcases hh : s.host with _ | ⟨a, rest⟩
  · cases hw : s.waiting with
    | true => rcases step_waiting hw (by simp [hh]) with h' | h' <;> simp [h'] at h
    | false =>
      rw [step_idle hw hh] at h
      cases h
      exact .inl ⟨rfl, rfl, rfl⟩
  · by_cases hr : a = .reset
    · subst hr
      rw [step_reset hh] at h
      cases h
      exact .inr (.inl ⟨rest, rfl, rfl⟩)
    · cases hw : s.waiting with
      | true => rcases step_waiting hw (by simp [hh, hr]) with h' | h' <;> simp [h'] at h
      | false =>
        refine .inr (.inr ?_)
        cases a with
        | reset => exact absurd rfl hr
        | read k =>
          rw [step_read hw hh] at h
          cases h
          exact .inl ⟨rfl, k, rest, rfl, rfl⟩
        | write k w =>
          by_cases hk : k = 0
          · subst hk
            obtain ⟨-, i, hd, he⟩ | ⟨hl, -⟩ := decode_cases (cmdByte w)
            · rw [step_decoded hw hh hd, exec_eq_require] at h
              cases h
              exact .inr (.inr (.inr ⟨rfl, w, rest, i, rfl, he.symm, hd, rfl⟩))
            · rw [step_illegal hw hh hl] at h
              cases h
              exact .inr (.inr (.inl ⟨rfl, w, rest, rfl, hl, rfl⟩))
          · rw [step_write_other hw hh hk] at h
            cases h
            exact .inr (.inl ⟨rfl, k, w, rest, rfl, hk, rfl⟩)

end Sys2Proof.Machine
end

