-- ==== Sys2Proof/Laws/View.lean ====
section
/-! SUPPORT. What it means for two states to have the same view and the same surroundings, field by field. -/

namespace Sys2Proof.Machine

/-- Same view, same surroundings: every register agrees from the phase in which it holds a value, and everything outside the core does. -/
theorem view_env_eq_iff (a b : State) :
    (a.view = b.view ∧ a.env = b.env) ↔
      (a.phase = b.phase ∧ a.err = b.err ∧ (1 ≤ b.phase.code → a.coef = b.coef) ∧
        (2 ≤ b.phase.code → a.adcP = b.adcP ∧ a.adcT = b.adcT ∧ a.adcH = b.adcH) ∧
        (3 ≤ b.phase.code → a.tFine = b.tFine ∧ a.tOut = b.tOut) ∧ (4 ≤ b.phase.code → a.pOut = b.pOut) ∧
        (b.phase.code = 5 → a.hOut = b.hOut) ∧
        a.waiting = b.waiting ∧ a.host = b.host ∧ a.transport = b.transport ∧ a.reads = b.reads ∧
        a.hostData = b.hostData ∧ a.draws = b.draws) := by
  simp only [State.view, State.env, View.mk.injEq, Env.mk.injEq, State.calValid, State.rawValid, State.tValid, State.pValid,
    State.hValid]
  constructor
  · rintro ⟨⟨hp, he, h1, h2, h3, h4, h5, h6, h7, h8⟩, hw⟩
    simp only [hp] at h1 h2 h3 h4 h5 h6 h7 h8
    refine ⟨hp, he, fun q => ?_, fun q => ⟨?_, ?_, ?_⟩, fun q => ⟨?_, ?_⟩, fun q => ?_, fun q => ?_, hw⟩ <;> simp_all
  · rintro ⟨hp, he, h1, h2, h3, h4, h5, hw⟩
    simp only [hp]
    refine ⟨⟨trivial, he, ?_, ?_, ?_, ?_, ?_, ?_, ?_, ?_⟩, hw⟩ <;> split <;> simp_all

end Sys2Proof.Machine
end

