-- ==== Sys2Proof/Tests/Slice0.lean ====
section
/-! SUPPORT. The model's own tests: what well-formedness refuses, the command bytes from the opcode map, at most two steps per
instruction against the vectors of spec/95_test_vectors.md, and a witness for the hypotheses of each statement. -/

namespace Sys2Proof.Machine.Tests

/-! ### The named inputs of spec/95_test_vectors.md, section 3 -/

/-- Block A1. -/
def blockA1 : List Byte :=
  [0x70, 0x6B, 0x43, 0x67, 0x18, 0xFC, 0x7D, 0x8E, 0x43, 0xD6, 0xD0, 0x0B, 0x27] ++
  [0x0B, 0x8C, 0x00, 0xF9, 0xFF, 0x8C, 0x3C, 0xF8, 0xC6, 0x70, 0x17, 0x00, 0x4B]

/-- Block B1. -/
def blockB1 : List Byte := [0x6F, 0x01, 0x00, 0x12, 0x2D, 0x03, 0x1E, 0x00]

/-- Frame F1. -/
def frame1 : List Byte := [0x65, 0x5A, 0xC0, 0x7E, 0xED, 0x00, 0x7A, 0x12]

/-- Coefficient set S1, from the numbers the file lists. -/
def coefsS1 : Coefs where
  digT1 := 27504
  digT2 := 26435
  digT3 := BitVec.ofInt 16 (-1000)
  digP1 := 36477
  digP2 := BitVec.ofInt 16 (-10685)
  digP3 := 3024
  digP4 := 2855
  digP5 := 140
  digP6 := BitVec.ofInt 16 (-7)
  digP7 := 15500
  digP8 := BitVec.ofInt 16 (-14600)
  digP9 := 6000
  digH1 := 75
  digH2 := 367
  digH3 := 0
  digH4 := 301
  digH5 := 50
  digH6 := 30

/-- The state of vector V1 (S1, frame F1) with every register filled in, at a phase. -/
def stateV1 (p : Phase) : State :=
  { State.reset with
    coef := coefsS1, adcP := 415148, adcT := 519888, adcH := 31250, tFine := 128422, tOut := 2508, pOut := 100656, hOut := 68718,
    phase := p }

/-- The state of vector W1 with `T_FINE` filled in: coefficients of row L6, an all-zero frame. -/
def stateW1 (p : Phase) : State :=
  { State.reset with
    coef := { Coefs.zero with digT1 := 65535, digT2 := 32767, digT3 := 0x8000, digP1 := 1, digP4 := 0x8000, digP6 := 0x8000,
                              digP9 := 32767 }
    tFine := BitVec.ofInt 32 (-4194145), phase := p }

/-- A state with a next host action. -/
def withHost (h : List HostAction) (s : State) : State := { s with host := h }

/-- A state with scripted answers. -/
def withAnswers (a : List Answer) (s : State) : State := { s with transport := a }

/-- The next state, where there is one. -/
def nextOf (o : Host.Outcome State Fault Refusal) : Option State :=
  match o with
  | .next t => some t
  | .fault _ => none
  | .refused _ => none

/-! ### What well-formedness refuses, and accepts -/

theorem test_wf_opcode_00_refused : legalOpcode 0x00#8 = false := by decide
theorem test_wf_opcode_06_refused : legalOpcode 0x06#8 = false := by decide
theorem test_wf_opcode_FF_refused : legalOpcode 0xFF#8 = false := by decide
theorem test_wf_program_refused : legalProgram [0x01#8, 0x02#8, 0x06#8] = false := by decide
theorem test_wf_program_accepted : legalProgram [0x01#8, 0x02#8, 0x03#8, 0x04#8, 0x05#8] = true := by decide
theorem test_wf_coefs_digH4_refused : Coefs.wf { Coefs.zero with digH4 := 2048 } = false := by decide
theorem test_wf_coefs_digH5_refused : Coefs.wf { Coefs.zero with digH5 := BitVec.ofInt 16 (-2049) } = false := by decide
theorem test_wf_coefs_edges_accepted :
    Coefs.wf { Coefs.zero with digH4 := BitVec.ofInt 16 (-2048), digH5 := 2047 } = true := by decide
theorem test_wf_answer_short_refused : Answer.shaped 8 (.bytes blockB1.tail) = false := by decide
theorem test_wf_answer_long_refused : Answer.shaped 8 (.bytes (0 :: blockB1)) = false := by decide
theorem test_wf_answer_never_refused : Answer.shaped 8 .never = false := by decide
theorem test_wf_answer_accepted : Answer.shaped 8 (.bytes blockB1) = true := by decide

/-! ### Command bytes, written out from spec/30_encoding.md R91 -/

theorem test_decode_ldcal : decodeTableWord 8 0b00000001 = some .ldcal := by decide
theorem test_decode_rdfrm : decodeTableWord 8 0b00000010 = some .rdfrm := by decide
theorem test_decode_cmpt : decodeTableWord 8 0b00000011 = some .cmpt := by decide
theorem test_decode_cmpp : decodeTableWord 8 0b00000100 = some .cmpp := by decide
theorem test_decode_cmph : decodeTableWord 8 0b00000101 = some .cmph := by decide
theorem test_decode_00_refused : decodeTableWord 8 0b00000000 = none := by decide
theorem test_decode_06_refused : decodeTableWord 8 0b00000110 = none := by decide
theorem test_decode_80_refused : decodeTableWord 8 0b10000000 = none := by decide
theorem test_decode_81_refused : decodeTableWord 8 0b10000001 = none := by decide

/-- R113: a line of a text may hold a comment, and case does not matter (R112). -/
theorem test_assembler :
    Asm.program "LDCAL ; once\ncycle".toList = some [.ldcal, .rdfrm, .cmpt, .cmpp, .cmph] := by decide

/-- R112: "no operands". -/
theorem test_assembler_operand_refused : Asm.program "CMPT 1".toList = none := by decide

/-! ### One step each -/

/-- Row L1: A1 and B1 give S1; `STATUS = 0x01`. -/
theorem test_ldcal_L1 :
    (nextOf (exec .ldcal (withAnswers [.bytes blockA1, .bytes blockB1] .reset))).map (fun t => (t.coef, t.status)) =
      some (coefsS1, 0x01#32) := by decide

/-- Row L3, the humidity fields: `00 80 FF 80 F0 FF 80 AA`. -/
theorem test_ldcal_L3_humidity :
    (nextOf (exec .ldcal (withAnswers
      [.bytes (List.replicate 26 0xFF), .bytes [0x00, 0x80, 0xFF, 0x80, 0xF0, 0xFF, 0x80, 0xAA]] .reset))).map
        (fun t => (uval t.coef.digH1, sval t.coef.digH2, uval t.coef.digH3, sval t.coef.digH4, sval t.coef.digH5,
          sval t.coef.digH6)) =
      some (255, -32768, 255, -2048, -1, -128) := by decide

/-- Row F1b: the low nibbles of bytes 2 and 5 are ignored; from phase 5. -/
theorem test_rdfrm_F1b :
    (nextOf (exec .rdfrm (withAnswers [.bytes [0x65, 0x5A, 0xCF, 0x7E, 0xED, 0x0F, 0x7A, 0x12]] (stateV1 .hdone)))).map
        (fun t => (t.adcP.toNat, t.adcT.toNat, t.adcH.toNat, t.status)) =
      some (415148, 519888, 31250, 0x02#32) := by decide

/-- A failing read from phase 5: `STATUS = 0x11`, one read (0xF7, 8). -/
theorem test_rdfrm_fails :
    (nextOf (exec .rdfrm (withAnswers [.failure] (stateV1 .hdone)))).map (fun t => (t.status, t.reads)) =
      some (0x11#32, [⟨0xF7#8, 8⟩]) := by decide

/-- V1: `T_FINE = 128422`, `T_OUT = 2508`. -/
theorem test_cmpt_V1 :
    (nextOf (exec .cmpt { stateV1 .frame with tFine := 0, tOut := 0 })).map (fun t => (sval t.tFine, sval t.tOut, t.status)) =
      some (128422, 2508, 0x03#32) := by decide

/-- V5: an all-zero frame with S1; both values negative. -/
theorem test_cmpt_V5 :
    (nextOf (exec .cmpt { stateV1 .frame with adcT := 0 })).map (fun t => (sval t.tFine, sval t.tOut)) =
      some (-721301, -14088) := by decide

/-- W1: intermediates beyond 64 bits, narrowed to 32: `P_OUT = 814481881`. -/
theorem test_cmpp_W1 :
    (nextOf (exec .cmpp (stateW1 .tdone))).map (fun t => (uval t.pOut, t.status)) = some (814481881, 0x04#32) := by decide

/-- V4: a negative numerator and a wrapped negative result: `P_OUT = 4294957754`. -/
theorem test_cmpp_V4 :
    (nextOf (exec .cmpp { stateV1 .tdone with adcP := 1048575, tFine := 960246 })).map (fun t => uval t.pOut) =
      some 4294957754 := by decide

/-- V1: `H_OUT = 68718`. -/
theorem test_cmph_V1 :
    (nextOf (exec .cmph { stateV1 .pdone with hOut := 0 })).map (fun t => (uval t.hOut, t.status)) =
      some (68718, 0x05#32) := by decide

/-- V12a and V12b: the last `ADC_H` below the upper clamp and the first above. -/
theorem test_cmph_V12 :
    ((nextOf (exec .cmph { stateV1 .pdone with adcH := 37132 })).map (fun t => uval t.hOut),
      (nextOf (exec .cmph { stateV1 .pdone with adcH := 37133 })).map (fun t => uval t.hOut)) =
      (some 102391, some 102400) := by decide

/-- The first instruction after reset: `CMPT` is refused in phase 0, `STATUS = 0x20` (row 0 of section 3.7). -/
theorem test_step_first_after_reset :
    (nextOf (step (State.reset.withFetchWord 8 0x03))).map (fun t => t.status) = some 0x20#32 := by decide

/-- Program P2, step 3, through the step: `CMPP` in phase 2 is refused, `STATUS = 0x22`. -/
theorem test_step_sequence_error :
    (nextOf (step ((stateV1 .frame).withFetchWord 8 0x04))).map (fun t => t.status) = some 0x22#32 := by decide

/-- Program P6, last step: byte 0x80 in phase 1, `STATUS = 0x31`. -/
theorem test_step_illegal :
    (nextOf (step ((stateV1 .idle).withFetchWord 8 0x80))).map (fun t => t.status) = some 0x31#32 := by decide

/-- Section 3.8: after P1 index 4 reads 0x00010C6E. -/
theorem test_host_read_humidity :
    (nextOf (step (withHost [.read 4] (stateV1 .hdone)))).map (fun t => t.hostData) = some 0x00010C6E#32 := by decide

/-- Section 3.1: after L1 index 18 (`dig_T3 = -1000`) reads 0xFFFFFC18. -/
theorem test_host_read_signed_coefficient :
    (nextOf (step (withHost [.read 18] (stateV1 .idle)))).map (fun t => t.hostData) = some 0xFFFFFC18#32 := by decide

/-! ### Witnesses: a concrete input that meets the hypotheses of each statement, clause by clause -/

theorem witness_DivisionTruncatesTowardZero : (-3 : Int) ≠ 0 ∧ tdiv 7 (-2) = -3 ∧ tdiv (-1) 3 = 0 := by decide

theorem witness_CalibrationLayoutRoundTrips : coefsS1.wf = true ∧ blockA1.length = 26 ∧ blockB1.length = 8 := by decide

/-- The edges of the 12-bit range. -/
theorem witness_CalibrationLayoutRoundTrips_edges :
    Coefs.wf { coefsS1 with digH4 := 0xF800, digH5 := 0x07FF } = true := by decide

theorem witness_UnusedDataBitsAreIgnored_ldcal :
    State.reset.phase = .nocal ∧ blockA1.length = 26 ∧ blockB1.length = 8 ∧
      blockA1.set 24 0xFF ≠ blockA1 ∧ blockB1.set 7 0xFF ≠ blockB1 := by decide

theorem witness_UnusedDataBitsAreIgnored_rdfrm :
    (stateV1 .idle).phase ≠ .nocal ∧ frame1.length = 8 ∧
      (0xCF#8).toNat / 16 = (byteAt frame1 2).toNat / 16 ∧ (0x0F#8).toNat / 16 = (byteAt frame1 5).toNat / 16 ∧
      (frame1.set 2 0xCF#8).set 5 0x0F#8 ≠ frame1 := by decide

theorem witness_SensorAddressMap_ldcal :
    let image : Byte → Byte := fun a => a + 1
    let s := withAnswers [sensorAnswer image 0x88#8 26, sensorAnswer image 0xE1#8 8] .reset
    s.phase = .nocal ∧ s.transport = sensorAnswer image 0x88#8 26 :: sensorAnswer image 0xE1#8 8 :: [] := by decide

theorem witness_SensorAddressMap_rdfrm :
    let image : Byte → Byte := fun a => a + 1
    let s := withAnswers [sensorAnswer image 0xF7#8 8] (stateV1 .hdone)
    s.phase ≠ .nocal ∧ s.transport = sensorAnswer image 0xF7#8 8 :: [] := by decide

theorem witness_OpcodeMap : decode 0x05#8 = .ok .cmph := rfl

theorem witness_OpcodeMap_reserved :
    ((0x00#8).toNat = 0 ∨ 6 ≤ (0x00#8).toNat) ∧ ((0x06#8).toNat = 0 ∨ 6 ≤ (0x06#8).toNat) ∧
      ((0xFF#8).toNat = 0 ∨ 6 ≤ (0xFF#8).toNat) := by decide

theorem witness_AssemblerReadsMnemonics :
    "rDfRm".toList.map Asm.upper = Instr.rdfrm.mnemonic.toList ∧
      "Cycle".toList.map Asm.upper = Pseudo.cycle.mnemonic.toList := by decide

/-- With high bits set in the word: 0xFFFFFF02 is `RDFRM`. -/
theorem witness_StepRunsDecodedInstruction :
    let s := withHost [.write 0 0xFFFFFF02#32] (stateV1 .idle)
    s.waiting = false ∧ s.host = .write 0 0xFFFFFF02#32 :: [] ∧
      decode (BitVec.ofNat 8 ((0xFFFFFF02#32).toNat % 256)) = .ok .rdfrm := ⟨rfl, rfl, rfl⟩

theorem witness_IllegalCommandChangesErrOnly :
    let s := withHost [.write 0 0x106#32] (stateV1 .pdone)
    s.waiting = false ∧ s.host = .write 0 0x106#32 :: [] ∧
      ((0x106#32).toNat % 256 = 0 ∨ 6 ≤ (0x106#32).toNat % 256) ∧
      ((0x100#32).toNat % 256 = 0 ∨ 6 ≤ (0x100#32).toNat % 256) := by decide

theorem witness_SequenceErrorChangesErrOnly :
    (stateV1 .idle).phase ≠ .nocal ∧ State.reset.phase = .nocal ∧ (stateV1 .tdone).phase ≠ .frame ∧
      (stateV1 .frame).phase ≠ .tdone ∧ (stateV1 .tdone).phase ≠ .pdone := by decide

theorem witness_TransitionTableHolds_ok :
    columnOf .ldcal true [.bytes blockA1, .bytes blockB1] ∧ columnOf .rdfrm true [.bytes frame1] ∧
      columnOf .cmpt true [] ∧ columnOf .cmpp true [] ∧ columnOf .cmph true [] :=
  ⟨⟨blockA1, blockB1, [], by decide⟩, ⟨frame1, [], by decide⟩, trivial, trivial, trivial⟩

theorem witness_TransitionTableHolds_fail :
    columnOf .ldcal false [.failure] ∧ columnOf .ldcal false [.bytes blockA1, .failure] ∧ columnOf .rdfrm false [.failure] :=
  ⟨.inl ⟨[], rfl⟩, .inr ⟨blockA1, [], by decide⟩, ⟨[], rfl⟩⟩

theorem witness_TransitionTableHolds_sequence_error :
    (transitionTable .hdone .ldcal false).2 = .sequenceError ∧ (transitionTable .nocal .rdfrm true).2 = .sequenceError ∧
      (transitionTable .tdone .cmpt true).2 = .sequenceError ∧ (transitionTable .pdone .cmpp true).2 = .sequenceError ∧
      (transitionTable .hdone .cmph true).2 = .sequenceError := by decide

theorem witness_IdleMachineHoldsState : (stateV1 .hdone).waiting = false ∧ (stateV1 .hdone).host = [] := by decide

theorem witness_ReadGetsTheNextAnswer :
    (withAnswers [.bytes frame1] (stateV1 .idle)).transport = .bytes frame1 :: [] ∧ frame1.length = 8 ∧ frame1.tail.length ≠ 8 ∧
      (0 :: frame1).length ≠ 8 ∧ State.reset.transport = [] := by decide

theorem witness_LdcalLoadsCalibration :
    let s := withAnswers [.bytes blockA1, .bytes blockB1] .reset
    s.phase = .nocal ∧ (s.nextAnswer 26).outcome 26 = .got blockA1 ∧
      ((s.afterRead 0x88#8 26).nextAnswer 8).outcome 8 = .got blockB1 := by decide

theorem witness_LdcalLoadsCalibration_first_fails :
    let s := withAnswers [.failure] .reset
    s.phase = .nocal ∧ (s.nextAnswer 26).outcome 26 = .failed := by decide

theorem witness_LdcalLoadsCalibration_second_fails :
    let s := withAnswers [.bytes blockA1, .failure] .reset
    s.phase = .nocal ∧ (s.nextAnswer 26).outcome 26 = .got blockA1 ∧
      ((s.afterRead 0x88#8 26).nextAnswer 8).outcome 8 = .failed := by decide

/-- One scripted answer, then a free one: the second read meets the hypotheses of one of the two clauses. -/
theorem witness_LdcalLoadsCalibration_free_second :
    let s := withAnswers [.bytes blockA1] .reset
    s.phase = .nocal ∧ (s.nextAnswer 26).outcome 26 = .got blockA1 ∧
      (((s.afterRead 0x88#8 26).nextAnswer 8).outcome 8 = .failed ∨
        ∃ B, ((s.afterRead 0x88#8 26).nextAnswer 8).outcome 8 = .got B) := by
  refine ⟨rfl, by decide, ?_⟩
  rcases unscripted_outcome (s := (withAnswers [.bytes blockA1] .reset).afterRead 0x88#8 26) 8 rfl with h | ⟨B, -, h⟩
  · exact .inl h
  · exact .inr ⟨B, h⟩

theorem witness_LdcalLoadsCalibration_refused : (stateV1 .idle).phase ≠ .nocal := by decide

theorem witness_RdfrmReadsFrame :
    let s := withAnswers [.bytes frame1] (stateV1 .idle)
    s.phase ≠ .nocal ∧ (s.nextAnswer 8).outcome 8 = .got frame1 := by decide

theorem witness_RdfrmReadsFrame_fails :
    let s := withAnswers [.failure] (stateV1 .hdone)
    s.phase ≠ .nocal ∧ (s.nextAnswer 8).outcome 8 = .failed := by decide

theorem witness_RdfrmReadsFrame_refused : State.reset.phase = .nocal := by decide

/-- One byte short, and one byte long. -/
theorem witness_WrongLengthCountsAsFailure_first :
    let s := withAnswers [.bytes blockA1.tail] .reset
    let l := withAnswers [.bytes (0 :: blockA1)] .reset
    s.phase = .nocal ∧ s.transport = .bytes blockA1.tail :: [] ∧ blockA1.tail.length ≠ 26 ∧
      l.phase = .nocal ∧ l.transport = .bytes (0 :: blockA1) :: [] ∧ (0 :: blockA1).length ≠ 26 := by decide

theorem witness_WrongLengthCountsAsFailure_second :
    let s := withAnswers [.bytes blockA1, .bytes blockB1.tail] .reset
    s.phase = .nocal ∧ s.transport = .bytes blockA1 :: .bytes blockB1.tail :: [] ∧ blockA1.length = 26 ∧
      blockB1.tail.length ≠ 8 := by decide

theorem witness_WrongLengthCountsAsFailure_frame :
    let s := withAnswers [.bytes (0 :: frame1)] (stateV1 .pdone)
    s.phase ≠ .nocal ∧ s.transport = .bytes (0 :: frame1) :: [] ∧ (0 :: frame1).length ≠ 8 := by decide

theorem witness_ReadsIssuedByEachCommand_ldcal :
    let s := withAnswers [.bytes blockA1, .bytes blockB1] .reset
    s.phase = .nocal ∧ ∃ t, exec .ldcal s = .next t := ⟨rfl, _, rfl⟩

theorem witness_ReadsIssuedByEachCommand_rdfrm :
    let s := withAnswers [.bytes frame1] (stateV1 .idle)
    s.phase ≠ .nocal ∧ ∃ t, exec .rdfrm s = .next t := ⟨by decide, _, rfl⟩

theorem witness_ReadsIssuedByEachCommand_compensations :
    (∃ t, exec .cmpt (stateV1 .frame) = .next t) ∧ (∃ t, exec .cmpp (stateV1 .tdone) = .next t) ∧
      ∃ t, exec .cmph (stateV1 .pdone) = .next t := ⟨⟨_, rfl⟩, ⟨_, rfl⟩, ⟨_, rfl⟩⟩

theorem witness_ReadsIssuedByEachCommand_refused :
    admits .ldcal (stateV1 .idle).phase = false ∧ ∃ t, exec .ldcal (stateV1 .idle) = .next t := ⟨rfl, _, rfl⟩

theorem witness_CmptComputesTemperature : (stateV1 .frame).phase = .frame ∧ (stateV1 .tdone).phase ≠ .frame := by decide

theorem witness_CmppComputesPressure : (stateV1 .tdone).phase = .tdone ∧ (stateV1 .pdone).phase ≠ .tdone := by decide

/-- V11: S1 with `dig_P1 = 0`. -/
theorem witness_PressureSentinelIsZero :
    let s := { stateV1 .tdone with coef := { coefsS1 with digP1 := 0 } }
    s.phase = .tdone ∧ pressV1c (uval s.coef.digP1) (sval s.coef.digP2) (sval s.coef.digP3) (sval s.tFine) = 0 := by decide

theorem witness_CmphComputesHumidity : (stateV1 .pdone).phase = .pdone ∧ (stateV1 .hdone).phase ≠ .pdone := by decide

/-- `x2` of `CMPH` in a state of S1 with another `ADC_H` (V12, V13). -/
def x2WithRaw (adcH : Int) : Int :=
  humX2 (uval coefsS1.digH1)
    (humA adcH (sval coefsS1.digH4) (sval coefsS1.digH5) 128422 *
      humB (sval coefsS1.digH2) (uval coefsS1.digH3) (sval coefsS1.digH6) 128422)

/-- V13b, V13a, V12a and V12b: just below the range, its low end, inside near its high end, just above. -/
theorem witness_HumidityClampIsNoFault :
    (stateV1 .pdone).phase = .pdone ∧ x2WithRaw 19420 < 0 ∧ (0 ≤ x2WithRaw 19421 ∧ x2WithRaw 19421 ≤ 419430400) ∧
      (0 ≤ x2WithRaw 37132 ∧ x2WithRaw 37132 ≤ 419430400) ∧ 419430400 < x2WithRaw 37133 := by decide

theorem witness_ReadFailedEffects :
    (∃ t, exec .ldcal (withAnswers [.failure] .reset) = .next t ∧ t.waiting = false ∧ t.err = .readFailed) ∧
      ∃ t, exec .rdfrm (withAnswers [.failure] (stateV1 .hdone)) = .next t ∧ t.waiting = false ∧ t.err = .readFailed :=
  ⟨⟨_, rfl, rfl, rfl⟩, ⟨_, rfl, rfl, rfl⟩⟩

theorem witness_FaultsArePrecise :
    (let s := withHost [.write 0 0x04#32] (stateV1 .frame)
     s.waiting = false ∧ s.host = .write 0 0x04#32 :: [] ∧ ∃ t, step s = .next t ∧ t.waiting = false ∧ t.err ≠ .noError) ∧
    (let s := withHost [.write 0 0x02#32] (withAnswers [.failure] (stateV1 .hdone))
     s.waiting = false ∧ s.host = .write 0 0x02#32 :: [] ∧ ∃ t, step s = .next t ∧ t.waiting = false ∧ t.err ≠ .noError) :=
  ⟨⟨rfl, rfl, _, rfl, rfl, by decide⟩, ⟨rfl, rfl, _, rfl, rfl, by decide⟩⟩

theorem witness_ErrIsNotSticky :
    let s := withHost [.write 0 0x03#32] (stateV1 .frame)
    s.waiting = false ∧ s.host = .write 0 0x03#32 :: [] ∧ ∃ t, step s = .next t ∧ t.waiting = false :=
  ⟨rfl, rfl, _, rfl, rfl⟩

theorem witness_UnansweredReadWaitsForReset_reads :
    (let s := withAnswers [.never] .reset
     s.phase = .nocal ∧ s.transport = .never :: []) ∧
    (let s := withAnswers [.bytes blockA1, .never] .reset
     s.phase = .nocal ∧ s.transport = .bytes blockA1 :: .never :: [] ∧ blockA1.length = 26) ∧
    (let s := withAnswers [.never] (stateV1 .hdone)
     s.phase ≠ .nocal ∧ s.transport = .never :: []) := by decide

theorem witness_UnansweredReadWaitsForReset_waiting :
    let w := { stateV1 .idle with waiting := true }
    w.waiting = true ∧ w.host = [] ∧ (withHost [.read 1] w).host = .read 1 :: [] ∧
      (withHost [.write 0 2] w).host = .write 0 2 :: [] ∧ (withHost [.reset] w).host = .reset :: [] := by decide

theorem witness_ResetSignalEffect : (withHost [.reset] (stateV1 .hdone)).host = .reset :: [] := by decide

/-- Each readable register at the first phase in which it holds a value, and the ends of each range of indices. -/
theorem witness_HostRegisterMap :
    (stateV1 .tdone).waiting = false ∧ (withHost [.read 2] (stateV1 .tdone)).host = .read 2 :: [] ∧
      3 ≤ (stateV1 .tdone).phase.code ∧ 4 ≤ (stateV1 .pdone).phase.code ∧ (stateV1 .hdone).phase.code = 5 ∧
      1 ≤ (stateV1 .idle).phase.code ∧ 6 ≤ 6 ∧ 15 ≤ 15 ∧ 16 ≤ 16 ∧ 33 ≤ 33 ∧ 34 ≤ 34 := by decide

theorem witness_HostRegisterMap_read :
    let s := withHost [.read 33] (stateV1 .idle)
    s.waiting = false ∧ s.host = .read 33 :: [] ∧ ∃ t, step s = .next t ∧ t.hostData = 30 := ⟨rfl, rfl, _, rfl, by decide⟩

theorem witness_HostRegisterMap_write :
    let s := withHost [.write 1 7] (stateV1 .idle)
    s.waiting = false ∧ s.host = .write 1 7 :: [] ∧ 1 ≠ 0 := by decide

/-- `T_OUT` and `T_FINE` in the last phase in which they hold no value. -/
theorem witness_ReadOfNoValueIsFree_temperature :
    let s := withHost [.read 2] (stateV1 .frame)
    s.waiting = false ∧ s.host = .read 2 :: [] ∧ s.phase.code < 3 ∧ (withHost [.read 5] s).host = .read 5 :: [] := by decide

/-- `P_OUT`, `H_OUT` and the two ends of the coefficient file. -/
theorem witness_ReadOfNoValueIsFree_others :
    (withHost [.read 3] (stateV1 .tdone)).host = .read 3 :: [] ∧ (stateV1 .tdone).phase.code < 4 ∧
      (withHost [.read 4] (stateV1 .pdone)).host = .read 4 :: [] ∧ (stateV1 .pdone).phase.code < 5 ∧
      (withHost [.read 16] State.reset).host = .read 16 :: [] ∧ (withHost [.read 33] State.reset).host = .read 33 :: [] ∧
      State.reset.waiting = false ∧ State.reset.phase.code < 1 := by decide

/-- Two states that differ in `P_OUT` in phase 3, where it holds no value. -/
theorem witness_NoStepReadsARegisterWithoutValue :
    let s₁ := withHost [.write 0 0x04#32] (stateV1 .tdone)
    let s₂ := { s₁ with pOut := 7, hOut := 9 }
    s₁ ≠ s₂ ∧ s₁.view = s₂.view ∧ s₁.env = s₂.env ∧ ∃ t, step s₁ = .next t :=
  ⟨by decide, by decide, by decide, _, rfl⟩

/-- The same with a stop on each side. -/
theorem witness_NoStepReadsARegisterWithoutValue_stops :
    let s₁ := { stateV1 .tdone with waiting := true }
    let s₂ := { s₁ with pOut := 7 }
    s₁ ≠ s₂ ∧ s₁.view = s₂.view ∧ s₁.env = s₂.env ∧ step s₁ = .fault .transportNeverAnswers ∧
      step (withHost [.read 1] s₁) = .refused .hostHeldOff :=
  ⟨by decide, by decide, by decide, rfl, rfl⟩

/-- V1 before its last command: all four clauses of coherence but the last have their premise met. -/
theorem witness_EveryStepKeepsCycleCoherent :
    let s := withHost [.write 0 0x05#32] (stateV1 .pdone)
    s.calValid = true ∧ s.tValid = true ∧ s.pValid = true ∧ s.Coherent ∧ ∃ t, step s = .next t :=
  ⟨by decide, by decide, by decide, by unfold State.Coherent; decide, _, rfl⟩

theorem witness_PhaseReturnsToNocalOnlyByReset :
    let s := withHost [.reset] (stateV1 .hdone)
    s.phase ≠ .nocal ∧ ∃ t, step s = .next t ∧ t.phase = .nocal := ⟨by decide, _, rfl, rfl⟩

theorem witness_CoefficientsLoadedOnceUntilReset_kept :
    let s := withHost [.write 0 0x01#32] (stateV1 .idle)
    (∃ t, step s = .next t) ∧ s.phase ≠ .nocal ∧ ∀ rest, s.host ≠ .reset :: rest :=
  ⟨⟨_, rfl⟩, by decide, fun _ h => nomatch h⟩

theorem witness_CoefficientsLoadedOnceUntilReset_loaded :
    let s := withHost [.write 0 0x01#32] (withAnswers [.bytes blockA1, .bytes blockB1] .reset)
    ∃ t, step s = .next t ∧ t.view.coef = some coefsS1 ∧ s.view.coef = none := ⟨_, rfl, by decide, by decide⟩

theorem witness_CoefRawTFineAndResultsHaveOneWriter_ldcal :
    ∃ t, step (withHost [.write 0 0x01#32] (withAnswers [.bytes blockA1, .bytes blockB1] .reset)) = .next t ∧
      t.view.coef = some coefsS1 := ⟨_, rfl, by decide⟩

theorem witness_CoefRawTFineAndResultsHaveOneWriter_rdfrm :
    ∃ t, step (withHost [.write 0 0x02#32] (withAnswers [.bytes frame1] (stateV1 .idle))) = .next t ∧
      t.view.adcP = some 415148 ∧ t.view.adcT = some 519888 ∧ t.view.adcH = some 31250 :=
  ⟨_, rfl, by decide, by decide, by decide⟩

theorem witness_CoefRawTFineAndResultsHaveOneWriter_compensations :
    (∃ t, step (withHost [.write 0 0x03#32] (stateV1 .frame)) = .next t ∧
      t.view.tFine = some 128422 ∧ t.view.tOut = some 2508) ∧
    (∃ t, step (withHost [.write 0 0x04#32] (stateV1 .tdone)) = .next t ∧ t.view.pOut = some 100656) ∧
    (∃ t, step (withHost [.write 0 0x05#32] (stateV1 .pdone)) = .next t ∧ t.view.hOut = some 68718) :=
  ⟨⟨_, rfl, by decide, by decide⟩, ⟨_, rfl, by decide⟩, ⟨_, rfl, by decide⟩⟩

/-- Of both statements that suppose an answering transport. -/
theorem witness_StepKeepsTransportAnswering :
    State.TransportAnswers (withHost [.write 0 1, .read 2, .reset] (withAnswers [.failure, .bytes blockA1] .reset)) := by
  unfold State.TransportAnswers; decide

theorem witness_AnsweredTransportNeverStops :
    State.TransportAnswers (withHost [.write 0 2, .read 4] (withAnswers [.bytes frame1] (stateV1 .hdone))) := by
  unfold State.TransportAnswers; decide

theorem witness_CycleAndTempExpand :
    let s := withHost (hostProgram (encodeProgram Pseudo.cycle.expand)) (withAnswers [.bytes frame1] (stateV1 .idle))
    s.waiting = false ∧ s.host = hostProgram (encodeProgram Pseudo.cycle.expand) ++ [] ∧ s.phase ≠ .nocal ∧
      s.transport = .bytes frame1 :: [] ∧ frame1.length = 8 := by decide

theorem witness_CycleAndTempExpand_fails :
    let s := withHost (hostProgram (encodeProgram Pseudo.cycle.expand)) (withAnswers [.failure] (stateV1 .idle))
    s.waiting = false ∧ s.host = hostProgram (encodeProgram Pseudo.cycle.expand) ++ [] ∧ s.phase ≠ .nocal ∧
      s.transport = .failure :: [] := by decide

theorem witness_CycleAndTempExpand_uncalibrated :
    let s := withHost (hostProgram (encodeProgram Pseudo.cycle.expand)) State.reset
    s.waiting = false ∧ s.host = hostProgram (encodeProgram Pseudo.cycle.expand) ++ [] ∧ s.phase = .nocal := by decide

theorem witness_CycleAndTempExpand_temp :
    let s := withHost (hostProgram (encodeProgram Pseudo.temp.expand)) (withAnswers [.bytes frame1] (stateV1 .tdone))
    s.waiting = false ∧ s.host = hostProgram (encodeProgram Pseudo.temp.expand) ++ [] ∧ s.phase ≠ .nocal ∧
      s.transport = .bytes frame1 :: [] ∧ frame1.length = 8 := by decide

theorem witness_StartupAndCycleCompleteReading :
    let s := withHost (hostProgram [0x01#8, 0x02#8, 0x03#8, 0x04#8, 0x05#8])
      (withAnswers [.bytes blockA1, .bytes blockB1, .bytes frame1] .reset)
    s.waiting = false ∧ s.phase = .nocal ∧ blockA1.length = 26 ∧ blockB1.length = 8 ∧ frame1.length = 8 ∧
      s.host = hostProgram [0x01#8, 0x02#8, 0x03#8, 0x04#8, 0x05#8] ++ [] ∧
      s.transport = .bytes blockA1 :: .bytes blockB1 :: .bytes frame1 :: [] := by decide

end Sys2Proof.Machine.Tests
end

/-! PROOFS of the family `10_state.md`: the registers, which of them hold a value, who writes them, and how the host sees them. -/

/-! ### The register file seen by the host (spec/10_state.md R30 to R34, R40)

The host register map as a table of `State.view`, one equation per kind of index, and what a host read does. -/

namespace Sys2Proof.Machine

/-! The codes of `PHASE` and `ERR`. -/

theorem Phase.code_le (p : Phase) : p.code ≤ 5 := by
  cases p <;> decide

theorem ErrCode.code_le (e : ErrCode) : e.code ≤ 3 := by
  cases e <;> decide

/-- A calibrated phase has a code from 1 on. -/
theorem Phase.one_le_code {p : Phase} (hp : p ≠ .nocal) : 1 ≤ p.code := by
  cases p with
  | nocal => exact absurd rfl hp
  | idle | frame | tdone | pdone | hdone => decide

/-! A register is in the view exactly from the first phase in which it holds a value (R30). -/

theorem view_coef_eq_some (s : State) (c : Coefs) : s.view.coef = some c ↔ 1 ≤ s.phase.code ∧ s.coef = c := by
  simp [State.view, State.calValid]

theorem view_adcP_eq_some (s : State) (v : BitVec 20) : s.view.adcP = some v ↔ 2 ≤ s.phase.code ∧ s.adcP = v := by
  simp [State.view, State.rawValid]

theorem view_adcT_eq_some (s : State) (v : BitVec 20) : s.view.adcT = some v ↔ 2 ≤ s.phase.code ∧ s.adcT = v := by
  simp [State.view, State.rawValid]

theorem view_adcH_eq_some (s : State) (v : BitVec 16) : s.view.adcH = some v ↔ 2 ≤ s.phase.code ∧ s.adcH = v := by
  simp [State.view, State.rawValid]

theorem view_tFine_eq_some (s : State) (v : BitVec 32) : s.view.tFine = some v ↔ 3 ≤ s.phase.code ∧ s.tFine = v := by
  simp [State.view, State.tValid]

theorem view_tOut_eq_some (s : State) (v : BitVec 32) : s.view.tOut = some v ↔ 3 ≤ s.phase.code ∧ s.tOut = v := by
  simp [State.view, State.tValid]

theorem view_pOut_eq_some (s : State) (v : BitVec 32) : s.view.pOut = some v ↔ 4 ≤ s.phase.code ∧ s.pOut = v := by
  simp [State.view, State.pValid]

theorem view_hOut_eq_some (s : State) (v : BitVec 32) : s.view.hOut = some v ↔ s.phase.code = 5 ∧ s.hOut = v := by
  simp [State.view, State.hValid]

theorem view_coef_eq_none (s : State) : s.view.coef = none ↔ s.phase.code < 1 := by
  simp [State.view, State.calValid]

theorem view_tFine_eq_none (s : State) : s.view.tFine = none ↔ s.phase.code < 3 := by
  simp [State.view, State.tValid]

theorem view_tOut_eq_none (s : State) : s.view.tOut = none ↔ s.phase.code < 3 := by
  simp [State.view, State.tValid]

theorem view_pOut_eq_none (s : State) : s.view.pOut = none ↔ s.phase.code < 4 := by
  simp [State.view, State.pValid]

theorem view_hOut_eq_none (s : State) : s.view.hOut = none ↔ s.phase.code ≠ 5 := by
  simp [State.view, State.hValid]

/-! The table of R33: what the host's index selects from the view. -/

theorem hostWord_cmd (s : State) : s.hostWord 0 = some 0 := rfl
theorem hostWord_status (s : State) : s.hostWord 1 = some s.status := rfl
theorem hostWord_tOut (s : State) : s.hostWord 2 = s.view.tOut := rfl
theorem hostWord_pOut (s : State) : s.hostWord 3 = s.view.pOut := rfl
theorem hostWord_hOut (s : State) : s.hostWord 4 = s.view.hOut := rfl
theorem hostWord_tFine (s : State) : s.hostWord 5 = s.view.tFine := rfl

theorem hostWord_of_six_le (s : State) {k : Nat} (hk : 6 ≤ k) :
    s.hostWord k = if 16 ≤ k ∧ k ≤ 33 then s.view.coef.map (·.word (k - 16)) else some 0 := by
  obtain ⟨n, rfl⟩ := Nat.exists_eq_add_of_le' hk
  change (if _ then if _ then _ else _ else _) = _
  cases hc : s.calValid <;> simp [State.view, hc]

theorem hostWord_coef (s : State) {k : Nat} (h₁ : 16 ≤ k) (h₂ : k ≤ 33) :
    s.hostWord k = s.view.coef.map (·.word (k - 16)) := by
  rw [hostWord_of_six_le s (by omega), if_pos ⟨h₁, h₂⟩]

theorem hostWord_reserved (s : State) {k : Nat} (hk : 6 ≤ k ∧ k ≤ 15 ∨ 34 ≤ k) : s.hostWord k = some 0 := by
  rw [hostWord_of_six_le s (by omega), if_neg (by omega)]

/-- The map is a function of the view: the host sees no register that holds no value. -/
theorem hostWord_eq_of_view_eq {a b : State} (h : a.view = b.view) (k : Nat) : a.hostWord k = b.hostWord k := by
  have hk : k = 0 ∨ k = 1 ∨ k = 2 ∨ k = 3 ∨ k = 4 ∨ k = 5 ∨ 6 ≤ k := by omega
  rcases hk with rfl | rfl | rfl | rfl | rfl | rfl | hk
  · rw [hostWord_cmd, hostWord_cmd]
  · have hp : a.phase = b.phase := congrArg View.phase h
    have he : a.err = b.err := congrArg View.err h
    rw [hostWord_status, hostWord_status, State.status, State.status, hp, he]
  · rw [hostWord_tOut, hostWord_tOut, h]
  · rw [hostWord_pOut, hostWord_pOut, h]
  · rw [hostWord_hOut, hostWord_hOut, h]
  · rw [hostWord_tFine, hostWord_tFine, h]
  · rw [hostWord_of_six_le a hk, hostWord_of_six_le b hk, h]

theorem hostRead_of_some {s : State} {k : Nat} {w : Word} (h : s.hostWord k = some w) :
    s.hostRead k = { s with hostData := w } := by
  simp [State.hostRead, h]

theorem hostRead_of_none {s : State} {k : Nat} (h : s.hostWord k = none) :
    s.hostRead k = { s with hostData := Config.freeWord s.draws, draws := s.draws + 1 } := by
  simp [State.hostRead, h]

/-- A host read changes no register. -/
theorem hostRead_view (s : State) (k : Nat) : (s.hostRead k).view = s.view := by
  obtain ⟨w, -, h⟩ | ⟨-, h⟩ := hostRead_cases k s <;> rw [h] <;> rfl

/-- Of the surroundings a host read changes only the port's word and the counter of free values. -/
theorem hostRead_env (s : State) (k : Nat) :
    (s.hostRead k).env = { s.env with hostData := (s.hostRead k).hostData, draws := (s.hostRead k).draws } := by
  obtain ⟨w, -, h⟩ | ⟨-, h⟩ := hostRead_cases k s <;> rw [h] <;> rfl

/-- A step that takes a host read answers the read of the state with that action taken off. -/
theorem step_read_eq {s : State} {k : Nat} {rest : List HostAction} (hw : s.waiting = false)
    (hh : s.host = .read k :: rest) : step s = .next (State.hostRead k { s with host := rest }) := by
  rw [step_read hw hh, State.popHost, hh, List.tail_cons]

/-- A host write beside `CMD` takes the action off and changes nothing else. -/
theorem step_write_other_eq {s : State} {k : Nat} {w : Word} {rest : List HostAction} (hw : s.waiting = false)
    (hh : s.host = .write k w :: rest) (hk : k ≠ 0) : step s = .next { s with host := rest } := by
  rw [step_write_other hw hh hk, State.popHost, hh, List.tail_cons]

/-! The bits of a register as a 32-bit word hold the register's number (R33). -/

theorem uval_zeroExtend {n : Nat} (v : BitVec n) (hn : n ≤ 32) : uval (v.zeroExtend 32) = uval v := by
  simp [uval, BitVec.toNat_setWidth_of_le hn]

theorem sval_signExtend {n : Nat} (v : BitVec n) (hn : n ≤ 32) : sval (v.signExtend 32) = sval v :=
  BitVec.toInt_signExtend_of_le hn

/-! The `STATUS` word (R34), and the registers right after reset (R42). -/

/-- The word is below 2^32, so its number is the sum of R34. -/
theorem status_toNat (s : State) : s.status.toNat = s.phase.code + 16 * s.err.code := by
  have hp := s.phase.code_le
  have he := s.err.code_le
  rw [State.status, BitVec.toNat_ofNat, Nat.mod_eq_of_lt (by omega)]

/-- Settles O37, by evaluating the one state. -/
theorem resetState : Obligations.ResetState := ⟨rfl, rfl⟩

/-- Settles O38: a number below 64 is its three fields, because `PHASE` is below 8 and `ERR` below 4. -/
theorem statusWordFields : Obligations.StatusWordFields := by
  refine ⟨fun s => ?_, fun s w rest hw hh => step_write_other_eq hw hh (by decide)⟩
  have hp := s.phase.code_le
  have he := s.err.code_le
  have hs := status_toNat s
  refine ⟨hs, ?_, ?_, ?_, ?_⟩
  · rw [BitVec.extractLsb'_toNat, hs, Nat.shiftRight_zero]
    omega
  · rw [BitVec.getLsbD, hs, Nat.testBit_eq_decide_div_mod_eq]
    simp only [decide_eq_false_iff_not]
    omega
  · rw [BitVec.extractLsb'_toNat, hs, Nat.shiftRight_eq_div_pow]
    omega
  · have hzero : (0 : BitVec 26).toNat = 0 := rfl
    apply BitVec.eq_of_toNat_eq
    rw [BitVec.extractLsb'_toNat, hs, Nat.shiftRight_eq_div_pow, hzero]
    omega

/-! What a host read returns. -/

/-- Settles O40: the view has no value at the index, and a host read of no value gives the free word of the draw. -/
theorem readOfNoValueIsFree : Obligations.ReadOfNoValueIsFree := by
  intro s k rest hw hh hfree
  have hnone : State.hostWord { s with host := rest } k = none := by
    rcases hfree with ⟨rfl | rfl, hp⟩ | ⟨rfl, hp⟩ | ⟨rfl, hp⟩ | ⟨h₁, h₂, hp⟩
    · exact (view_tOut_eq_none _).2 hp
    · exact (view_tFine_eq_none _).2 hp
    · exact (view_pOut_eq_none _).2 hp
    · exact (view_hOut_eq_none _).2 hp.ne
    · rw [hostWord_coef _ h₁ h₂, (view_coef_eq_none { s with host := rest }).2 hp, Option.map_none]
  rw [step_read_eq hw hh, hostRead_of_none hnone]

/-- What a host read leaves as the port's word, where the table of R33 fixes it; the host actions still to come do not matter. -/
theorem hostRead_hostData {s : State} {k : Nat} {w : Word} (rest : List HostAction) (h : s.hostWord k = some w) :
    (State.hostRead k { s with host := rest }).hostData = w :=
  congrArg State.hostData (hostRead_of_some (s := { s with host := rest }) h)

/-- Each coefficient's word holds its number: zero-extended where it is unsigned, sign-extended where it is signed (R21). -/
theorem coefWord_value (c : Coefs) :
    uval (c.word 0) = uval c.digT1 ∧ sval (c.word 1) = sval c.digT2 ∧ sval (c.word 2) = sval c.digT3 ∧
    uval (c.word 3) = uval c.digP1 ∧ sval (c.word 4) = sval c.digP2 ∧ sval (c.word 5) = sval c.digP3 ∧
    sval (c.word 6) = sval c.digP4 ∧ sval (c.word 7) = sval c.digP5 ∧ sval (c.word 8) = sval c.digP6 ∧
    sval (c.word 9) = sval c.digP7 ∧ sval (c.word 10) = sval c.digP8 ∧ sval (c.word 11) = sval c.digP9 ∧
    uval (c.word 12) = uval c.digH1 ∧ sval (c.word 13) = sval c.digH2 ∧ uval (c.word 14) = uval c.digH3 ∧
    sval (c.word 15) = sval c.digH4 ∧ sval (c.word 16) = sval c.digH5 ∧ sval (c.word 17) = sval c.digH6 := by
  have hu (v : BitVec 16) : uval (v.zeroExtend 32) = uval v := uval_zeroExtend v (by decide)
  have hu8 (v : BitVec 8) : uval (v.zeroExtend 32) = uval v := uval_zeroExtend v (by decide)
  have hs (v : BitVec 16) : sval (v.signExtend 32) = sval v := sval_signExtend v (by decide)
  exact ⟨hu _, hs _, hs _, hu _, hs _, hs _, hs _, hs _, hs _, hs _, hs _, hs _, hu8 _, hs _, hu8 _, hs _, hs _,
    sval_signExtend _ (by decide)⟩

/-- Settles O39: the table's word at each index, by the equations of `State.hostWord`. -/
theorem hostRegisterMap : Obligations.HostRegisterMap := by
  refine ⟨fun s k rest hw hh => ?_, coefWord_value, fun s k w rest => step_write_other_eq⟩
  refine ⟨_, step_read_eq hw hh, hostRead_view _ k, hostRead_env _ k, ?_, ?_, ?_, ?_, ?_, ?_, ?_, ?_, ?_⟩
  · rintro rfl
    exact hostRead_hostData rest (hostWord_cmd s)
  · rintro rfl
    exact hostRead_hostData rest (hostWord_status s)
  · rintro rfl hp
    exact congrArg sval (hostRead_hostData rest ((view_tOut_eq_some s _).2 ⟨hp, rfl⟩))
  · rintro rfl hp
    exact congrArg uval (hostRead_hostData rest ((view_pOut_eq_some s _).2 ⟨hp, rfl⟩))
  · rintro rfl hp
    exact congrArg uval (hostRead_hostData rest ((view_hOut_eq_some s _).2 ⟨hp, rfl⟩))
  · rintro rfl hp
    exact congrArg sval (hostRead_hostData rest ((view_tFine_eq_some s _).2 ⟨hp, rfl⟩))
  · exact fun h₁ h₂ => hostRead_hostData rest (hostWord_reserved s (.inl ⟨h₁, h₂⟩))
  · intro h₁ h₂ hp
    exact hostRead_hostData rest (by rw [hostWord_coef s h₁ h₂, (view_coef_eq_some s _).2 ⟨hp, rfl⟩, Option.map_some])
  · exact fun h => hostRead_hostData rest (hostWord_reserved s (.inr h))

end Sys2Proof.Machine

/-! ### No step reads a register that holds no value (spec/10_state.md R40, R41)

`State.Agree` is the relation of O41 with one name per register group. Each operation keeps it, so `exec`, `State.fetch` and `step` do. -/

namespace Sys2Proof.Machine

/-- Two states agree where a claim may compare them: on `PHASE`, `ERR`, every register that holds a value, and the surroundings. -/
structure State.Agree (a b : State) : Prop where
  phase : a.phase = b.phase
  err : a.err = b.err
  coef : 1 ≤ b.phase.code → a.coef = b.coef
  raw : 2 ≤ b.phase.code → a.adcP = b.adcP ∧ a.adcT = b.adcT ∧ a.adcH = b.adcH
  temp : 3 ≤ b.phase.code → a.tFine = b.tFine ∧ a.tOut = b.tOut
  press : 4 ≤ b.phase.code → a.pOut = b.pOut
  hum : b.phase.code = 5 → a.hOut = b.hOut
  waiting : a.waiting = b.waiting
  host : a.host = b.host
  transport : a.transport = b.transport
  reads : a.reads = b.reads
  hostData : a.hostData = b.hostData
  draws : a.draws = b.draws

/-- The relation is that of the statement: same view, same surroundings. -/
theorem State.agree_iff (a b : State) : a.Agree b ↔ a.view = b.view ∧ a.env = b.env := by
  rw [view_env_eq_iff]
  constructor
  · rintro ⟨h1, h2, h3, h4, h5, h6, h7, h8, h9, h10, h11, h12, h13⟩
    exact ⟨h1, h2, h3, h4, h5, h6, h7, h8, h9, h10, h11, h12, h13⟩
  · rintro ⟨h1, h2, h3, h4, h5, h6, h7, h8, h9, h10, h11, h12, h13⟩
    exact ⟨h1, h2, h3, h4, h5, h6, h7, h8, h9, h10, h11, h12, h13⟩

namespace State.Agree

variable {a b : State}

/-! The operations that read no register. -/

theorem popHost (h : a.Agree b) : a.popHost.Agree b.popHost :=
  { h with host := congrArg List.tail h.host }

theorem raise (h : a.Agree b) (e : ErrCode) : (a.raise e).Agree (b.raise e) :=
  { h with err := rfl }

theorem wait (h : a.Agree b) : a.wait.Agree b.wait :=
  { h with waiting := rfl }

theorem afterRead (h : a.Agree b) (addr : Byte) (n : Nat) : (a.afterRead addr n).Agree (b.afterRead addr n) :=
  { h with
    transport := by simp [h.transport]
    reads := by simp [h.reads]
    draws := by simp [h.transport, h.draws] }

/-- In an earlier phase fewer registers hold a value. -/
theorem lowerPhase (h : a.Agree b) {p : Phase} (hp : p.code ≤ b.phase.code) :
    State.Agree { a with phase := p } { b with phase := p } :=
  { h with
    phase := rfl
    coef := fun hc => h.coef (hc.trans hp)
    raw := fun hc => h.raw (hc.trans hp)
    temp := fun hc => h.temp (hc.trans hp)
    press := fun hc => h.press (hc.trans hp)
    hum := fun hc => h.hum (le_antisymm b.phase.code_le (hc.symm.le.trans hp)) }

theorem endCycle (h : a.Agree b) (hp : b.phase ≠ .nocal) : a.endCycle.Agree b.endCycle :=
  h.lowerPhase (Phase.one_le_code hp)

theorem resetCore (h : a.Agree b) : a.resetCore.Agree b.resetCore :=
  { h.lowerPhase (p := .nocal) (Nat.zero_le _) with err := rfl, waiting := rfl }

theorem nextAnswer_eq (h : a.Agree b) (n : Nat) : a.nextAnswer n = b.nextAnswer n := by
  simp only [State.nextAnswer, h.transport, h.draws]

/-- A word of the host register map is fixed only by registers that hold a value. -/
theorem hostWord_eq (h : a.Agree b) (k : Nat) : a.hostWord k = b.hostWord k :=
  hostWord_eq_of_view_eq ((State.agree_iff a b).1 h).1 k

theorem hostRead (h : a.Agree b) (k : Nat) : (a.hostRead k).Agree (b.hostRead k) := by
  cases hk : b.hostWord k with
  | some w =>
    rw [hostRead_of_some hk, hostRead_of_some ((h.hostWord_eq k).trans hk)]
    exact { h with hostData := rfl }
  | none =>
    rw [hostRead_of_none hk, hostRead_of_none ((h.hostWord_eq k).trans hk), h.draws]
    exact { h with hostData := rfl, draws := rfl }

/-! The bodies. Each runs only where it is admitted, and there every register it reads holds a value. -/

theorem ldcalBody (h : a.Agree b) : (ldcalBody a).Agree (ldcalBody b) := by
  have h₁ := h.afterRead blockAAddr blockALen
  have h₂ := h₁.afterRead blockBAddr blockBLen
  simp only [Machine.ldcalBody, memRead, h.nextAnswer_eq]
  cases (b.nextAnswer blockALen).outcome blockALen with
  | silent => exact h₁.wait
  | failed => exact h₁.raise _
  | got A =>
    dsimp only
    rw [h₁.nextAnswer_eq]
    cases ((b.afterRead blockAAddr blockALen).nextAnswer blockBLen).outcome blockBLen with
    | silent => exact h₂.wait
    | failed => exact h₂.raise _
    | got B =>
      exact { h₂ with
        phase := rfl
        err := rfl
        coef := fun _ => rfl
        raw := nofun
        temp := nofun
        press := nofun
        hum := nofun }

theorem rdfrmBody (h : a.Agree b) (hp : b.phase ≠ .nocal) : (rdfrmBody a).Agree (rdfrmBody b) := by
  have h₁ := h.afterRead frameAddr frameLen
  have h₂ := h₁.endCycle hp
  simp only [Machine.rdfrmBody, memRead, h.nextAnswer_eq]
  cases (b.nextAnswer frameLen).outcome frameLen with
  | silent => exact h₁.wait
  | failed => exact h₂.raise _
  | got F =>
    exact { h₂ with
      phase := rfl
      err := rfl
      coef := fun _ => h.coef (Phase.one_le_code hp)
      raw := fun _ => ⟨rfl, rfl, rfl⟩
      temp := nofun
      press := nofun
      hum := nofun }

theorem cmptBody (h : a.Agree b) (hp : b.phase = .frame) : (cmptBody a).Agree (cmptBody b) := by
  have hcoef := h.coef (by simp [hp, Phase.code])
  have hraw := h.raw (by simp [hp, Phase.code])
  have hval : a.tempOfRegs = b.tempOfRegs := by simp only [State.tempOfRegs, hcoef, hraw]
  rw [Machine.cmptBody, Machine.cmptBody, hval]
  exact { h with
    phase := rfl
    err := rfl
    coef := fun _ => hcoef
    raw := fun _ => hraw
    temp := fun _ => ⟨rfl, rfl⟩
    press := nofun
    hum := nofun }

theorem cmppBody (h : a.Agree b) (hp : b.phase = .tdone) : (cmppBody a).Agree (cmppBody b) := by
  have hcoef := h.coef (by simp [hp, Phase.code])
  have hraw := h.raw (by simp [hp, Phase.code])
  have htemp := h.temp (by simp [hp, Phase.code])
  have hval : a.pressOfRegs = b.pressOfRegs := by simp only [State.pressOfRegs, hcoef, hraw, htemp]
  rw [Machine.cmppBody, Machine.cmppBody, hval]
  exact { h with
    phase := rfl
    err := rfl
    coef := fun _ => hcoef
    raw := fun _ => hraw
    temp := fun _ => htemp
    press := fun _ => rfl
    hum := nofun }

theorem cmphBody (h : a.Agree b) (hp : b.phase = .pdone) : (cmphBody a).Agree (cmphBody b) := by
  have hcoef := h.coef (by simp [hp, Phase.code])
  have hraw := h.raw (by simp [hp, Phase.code])
  have htemp := h.temp (by simp [hp, Phase.code])
  have hpress := h.press (by simp [hp, Phase.code])
  have hval : a.humOfRegs = b.humOfRegs := by simp only [State.humOfRegs, hcoef, hraw, htemp]
  rw [Machine.cmphBody, Machine.cmphBody, hval]
  exact { h with
    phase := rfl
    err := rfl
    coef := fun _ => hcoef
    raw := fun _ => hraw
    temp := fun _ => htemp
    press := fun _ => hpress
    hum := fun _ => rfl }

/-- An admitted body keeps the agreement. -/
theorem bodyOf (h : a.Agree b) {i : Instr} (hadm : admits i b.phase = true) : (bodyOf i a).Agree (bodyOf i b) := by
  cases i with
  | ldcal => exact h.ldcalBody
  | rdfrm => exact h.rdfrmBody (by simpa [admits] using hadm)
  | cmpt => exact h.cmptBody (by simpa [admits] using hadm)
  | cmpp => exact h.cmppBody (by simpa [admits] using hadm)
  | cmph => exact h.cmphBody (by simpa [admits] using hadm)

/-- Both states admit a command or both refuse it, for admission reads `PHASE` only. -/
theorem require (h : a.Agree b) (i : Instr) :
    (a.require (admits i a.phase) (Machine.bodyOf i)).Agree (b.require (admits i b.phase) (Machine.bodyOf i)) := by
  rw [h.phase]
  cases hadm : admits i b.phase with
  | true => exact h.bodyOf hadm
  | false => exact h.raise _

end State.Agree

/-- Two answers of `State.fetch` that ask the same of states that agree. -/
inductive Fetch.Agree : Fetch → Fetch → Prop where
  | done {t u : State} (h : t.Agree u) : Fetch.Agree (.done t) (.done u)
  | command (op : Byte) {t u : State} (h : t.Agree u) : Fetch.Agree (.command op t) (.command op u)
  | stuck (f : Fault) : Fetch.Agree (.stuck f) (.stuck f)
  | held (r : Refusal) : Fetch.Agree (.held r) (.held r)

theorem State.Agree.fetch {a b : State} (h : a.Agree b) : a.fetch.Agree b.fetch := by
  unfold State.fetch
  rw [h.waiting, h.host]
  cases b.waiting with
  | true =>
    cases b.host with
    | nil => exact .stuck _
    | cons act rest =>
      cases act with
      | write k w => exact .held _
      | read k => exact .held _
      | reset => exact .done h.popHost.resetCore
  | false =>
    cases b.host with
    | nil => exact .done h
    | cons act rest =>
      cases act with
      | write k w =>
        by_cases hk : k = 0
        · simpa [hk] using .command (cmdByte w) h.popHost
        · simpa [hk] using .done h.popHost
      | read k => exact .done (h.popHost.hostRead k)
      | reset => exact .done h.popHost.resetCore

/-- Two outcomes of a step that stop alike or go on in states that agree. -/
inductive OutcomesAgree : Host.Outcome State Fault Refusal → Host.Outcome State Fault Refusal → Prop where
  | next {t u : State} (h : t.Agree u) : OutcomesAgree (.next t) (.next u)
  | fault (f : Fault) : OutcomesAgree (.fault f) (.fault f)
  | refused (r : Refusal) : OutcomesAgree (.refused r) (.refused r)

theorem State.Agree.step {a b : State} (h : a.Agree b) : OutcomesAgree (step a) (step b) := by
  have hf := h.fetch
  unfold Machine.step
  generalize a.fetch = x, b.fetch = y at hf
  cases hf with
  | done ht => exact .next ht
  | stuck f => exact .fault f
  | held r => exact .refused r
  | command op ht =>
    dsimp only
    cases decode op with
    | error e => exact .next (ht.raise .illegalCommand)
    | ok i =>
      dsimp only
      rw [exec_eq_require, exec_eq_require]
      exact .next (ht.require i)

/-- Settles O41: every operation a step is made of keeps the agreement, since it reads only registers that hold a value. -/
theorem noStepReadsARegisterWithoutValue : Obligations.NoStepReadsARegisterWithoutValue := by
  intro s₁ s₂ hview henv
  have h := ((State.agree_iff s₁ s₂).2 ⟨hview, henv⟩).step
  generalize step s₁ = o₁, step s₂ = o₂ at h
  cases h with
  | next ht =>
    refine ⟨?_, nofun, nofun⟩
    rintro _ ⟨⟩
    exact ⟨_, rfl, (State.agree_iff _ _).1 ht⟩
  | fault f => exact ⟨nofun, fun _ h => h, nofun⟩
  | refused r => exact ⟨nofun, nofun, fun _ h => h⟩

end Sys2Proof.Machine

/-! ### The range of `T_FINE` (spec/10_state.md R28, R29)

The two terms are bounded on their own; their bounds add up to those of the rule. -/

namespace Sys2Proof.Machine

/-- A product with a signed 16-bit factor, from the range of the other factor. -/
theorem mul_bounds_of_s16 {d c m M : Int} (hm : m ≤ d) (hM : d ≤ M) (hm0 : m ≤ 0) (hM0 : 0 ≤ M)
    (hc₁ : -32768 ≤ c) (hc₂ : c ≤ 32767) :
    min (M * -32768) (m * 32767) ≤ d * c ∧ d * c ≤ max (M * 32767) (m * -32768) := by
  constructor
  · rcases le_total 0 c with h | h
    · exact (min_le_right _ _).trans (by nlinarith)
    · exact (min_le_left _ _).trans (by nlinarith)
  · rcases le_total 0 c with h | h
    · exact le_trans (by nlinarith) (le_max_left _ _)
    · exact le_trans (by nlinarith) (le_max_right _ _)

/-- The first term, from the ranges of the registers. -/
theorem tempVar1_bounds {adc T1 T2 : Int} (ha₀ : 0 ≤ adc) (ha₁ : adc < 2 ^ 20) (h₀ : 0 ≤ T1) (h₁ : T1 < 2 ^ 16)
    (h₂ : -2 ^ 15 ≤ T2) (h₃ : T2 < 2 ^ 15) : -2097136 ≤ tempVar1 adc T1 T2 ∧ tempVar1 adc T1 T2 ≤ 2097120 := by
  have hd : -131070 ≤ asr adc 3 - shl T1 1 ∧ asr adc 3 - shl T1 1 ≤ 131071 := by
    simp only [asr, shl]
    omega
  obtain ⟨hlo, hhi⟩ := mul_bounds_of_s16 hd.1 hd.2 (by decide) (by decide) (c := T2) (by omega) (by omega)
  exact ⟨le_asr (by omega), asr_le (by omega)⟩

/-- The second term, from the ranges of the registers. Its first factor is a square, so the bounds are not symmetric. -/
theorem tempVar2_bounds {adc T1 T3 : Int} (ha₀ : 0 ≤ adc) (ha₁ : adc < 2 ^ 20) (h₀ : 0 ≤ T1) (h₁ : T1 < 2 ^ 16)
    (h₂ : -2 ^ 15 ≤ T3) (h₃ : T3 < 2 ^ 15) : -2097088 ≤ tempVar2 adc T1 T3 ∧ tempVar2 adc T1 T3 ≤ 2097024 := by
  have hb : -65535 ≤ asr adc 4 - T1 ∧ asr adc 4 - T1 ≤ 65535 := by
    simp only [asr]
    omega
  have hsq : (asr adc 4 - T1) * (asr adc 4 - T1) ≤ 65535 * 65535 := by nlinarith [hb.1, hb.2]
  have hq₀ : 0 ≤ asr ((asr adc 4 - T1) * (asr adc 4 - T1)) 12 := le_asr (by simpa using mul_self_nonneg _)
  have hq₁ : asr ((asr adc 4 - T1) * (asr adc 4 - T1)) 12 ≤ 1048544 := asr_le (by omega)
  obtain ⟨hlo, hhi⟩ := mul_bounds_of_s16 hq₀ hq₁ le_rfl (by decide) (c := T3) (by omega) (by omega)
  exact ⟨le_asr (by omega), asr_le (by omega)⟩

/-- Settles O26, by the bounds of the two terms and the monotonicity of the last rounding. -/
theorem tFineStaysInRange : Obligations.TFineStaysInRange := by
  intro adc T1 T2 T3
  have hadc : (adc.toNat : Int) < 2 ^ 20 := by exact_mod_cast adc.isLt
  have hT1 : (T1.toNat : Int) < 2 ^ 16 := by exact_mod_cast T1.isLt
  obtain ⟨lo₁, hi₁⟩ := tempVar1_bounds (Int.natCast_nonneg _) hadc (Int.natCast_nonneg _) hT1 (BitVec.le_toInt T2) BitVec.toInt_lt
  obtain ⟨lo₂, hi₂⟩ := tempVar2_bounds (Int.natCast_nonneg _) hadc (Int.natCast_nonneg _) hT1 (BitVec.le_toInt T3) BitVec.toInt_lt
  have hlo : -4194224 ≤ tempFine (uval adc) (uval T1) (sval T2) (sval T3) := le_trans (by decide) (add_le_add lo₁ lo₂)
  have hhi : tempFine (uval adc) (uval T1) (sval T2) (sval T3) ≤ 4194144 := le_trans (add_le_add hi₁ hi₂) (by decide)
  exact ⟨hlo, hhi, le_asr (by omega), asr_le (by omega)⟩

end Sys2Proof.Machine

/-! ### Who writes the registers (spec/10_state.md R20, R22, R27; spec/46_sequencer.md R234)

Of the eight registers beside `PHASE` and `ERR`, only an admitted command's body writes one, and each body writes its own. -/

namespace Sys2Proof.Machine

/-- The bits of the registers of R20 beside `PHASE` and `ERR`, whether or not they hold values. -/
def State.regs (s : State) :
    Coefs × (BitVec 20 × BitVec 20 × BitVec 16) × (BitVec 32 × BitVec 32) × BitVec 32 × BitVec 32 :=
  (s.coef, (s.adcP, s.adcT, s.adcH), (s.tFine, s.tOut), s.pOut, s.hOut)

theorem regs_eq_iff (s t : State) :
    s.regs = t.regs ↔ s.coef = t.coef ∧ (s.adcP = t.adcP ∧ s.adcT = t.adcT ∧ s.adcH = t.adcH) ∧
      (s.tFine = t.tFine ∧ s.tOut = t.tOut) ∧ s.pOut = t.pOut ∧ s.hOut = t.hOut := by
  simp [State.regs]

theorem hostRead_regs (s : State) (k : Nat) : (s.hostRead k).regs = s.regs := by
  obtain ⟨w, -, h⟩ | ⟨-, h⟩ := hostRead_cases k s <;> rw [h] <;> rfl

theorem hostRead_phase (s : State) (k : Nat) : (s.hostRead k).phase = s.phase := by
  obtain ⟨w, -, h⟩ | ⟨-, h⟩ := hostRead_cases k s <;> rw [h]

/-- What a step does to the registers: nothing, a reset, or the body of the command it admits. -/
theorem step_regs_cases {s t : State} (h : step s = .next t) :
    (s.regs = t.regs ∧ t.phase = s.phase) ∨
    (∃ rest, s.host = .reset :: rest ∧ s.regs = t.regs ∧ t.phase = .nocal) ∨
    (∃ i, s.issues (encode i) ∧ admits i s.phase = true ∧ t = bodyOf i s.popHost) := by
  obtain ⟨-, -, rfl⟩ | ⟨rest, hh, rfl⟩ | ⟨-, k, -, -, rfl⟩ | ⟨-, -, -, -, -, -, rfl⟩ | ⟨-, -, -, -, -, rfl⟩ |
    ⟨hw, w, rest, i, hh, hop, -, rfl⟩ := step_cases h
  · exact .inl ⟨rfl, rfl⟩
  · exact .inr (.inl ⟨rest, hh, rfl, rfl⟩)
  · exact .inl ⟨(hostRead_regs s.popHost k).symm, hostRead_phase s.popHost k⟩
  · exact .inl ⟨rfl, rfl⟩
  · exact .inl ⟨rfl, rfl⟩
  · cases hadm : admits i s.phase with
    | true => exact .inr (.inr ⟨i, ⟨hw, w, rest, hh, hop⟩, hadm, rfl⟩)
    | false => exact .inl ⟨rfl, rfl⟩

/-- What `t` holds was held by `s`, unless its writer is one of the instructions `W` (the phases are those of R30). -/
structure HeldUnless (W : Instr → Prop) (s t : State) : Prop where
  coef : 1 ≤ t.phase.code → (1 ≤ s.phase.code ∧ s.coef = t.coef) ∨ W .ldcal
  raw : 2 ≤ t.phase.code → (2 ≤ s.phase.code ∧ s.adcP = t.adcP ∧ s.adcT = t.adcT ∧ s.adcH = t.adcH) ∨ W .rdfrm
  temp : 3 ≤ t.phase.code → (3 ≤ s.phase.code ∧ s.tFine = t.tFine ∧ s.tOut = t.tOut) ∨ W .cmpt
  press : 4 ≤ t.phase.code → (4 ≤ s.phase.code ∧ s.pOut = t.pOut) ∨ W .cmpp
  hum : t.phase.code = 5 → (s.phase.code = 5 ∧ s.hOut = t.hOut) ∨ W .cmph

/-- With the same bits and no later phase, nothing new is held. -/
theorem heldUnless_of_regs_eq {W : Instr → Prop} {s t : State} (h : s.regs = t.regs) (hp : t.phase.code ≤ s.phase.code) :
    HeldUnless W s t := by
  obtain ⟨hcoef, hraw, htemp, hpress, hhum⟩ := (regs_eq_iff s t).1 h
  exact
    { coef := fun hc => .inl ⟨hc.trans hp, hcoef⟩
      raw := fun hc => .inl ⟨hc.trans hp, hraw⟩
      temp := fun hc => .inl ⟨hc.trans hp, htemp⟩
      press := fun hc => .inl ⟨hc.trans hp, hpress⟩
      hum := fun hc => .inl ⟨le_antisymm s.phase.code_le (hc.symm.le.trans hp), hhum⟩ }

theorem ldcalBody_heldUnless {W : Instr → Prop} (hW : W .ldcal) (s : State) : HeldUnless W s (ldcalBody s) := by
  obtain ⟨s₁, rfl | rfl, h | h⟩ | ⟨A, B, -, -, h⟩ := ldcalBody_cases s <;> rw [h]
  case inr => exact ⟨fun _ => .inr hW, nofun, nofun, nofun, nofun⟩
  all_goals exact heldUnless_of_regs_eq rfl le_rfl

theorem rdfrmBody_heldUnless {W : Instr → Prop} (hW : W .rdfrm) {s : State} (hp : s.phase ≠ .nocal) :
    HeldUnless W s (rdfrmBody s) := by
  have hc := Phase.one_le_code hp
  obtain h | h | ⟨F, -, h⟩ := rdfrmBody_cases s <;> rw [h]
  · exact heldUnless_of_regs_eq rfl le_rfl
  · exact heldUnless_of_regs_eq rfl hc
  · exact ⟨fun _ => .inl ⟨hc, rfl⟩, fun _ => .inr hW, nofun, nofun, nofun⟩

theorem cmptBody_heldUnless {W : Instr → Prop} (hW : W .cmpt) {s : State} (hp : s.phase = .frame) :
    HeldUnless W s (cmptBody s) where
  coef _ := .inl ⟨by simp [hp, Phase.code], rfl⟩
  raw _ := .inl ⟨by simp [hp, Phase.code], rfl, rfl, rfl⟩
  temp _ := .inr hW
  press := nofun
  hum := nofun

theorem cmppBody_heldUnless {W : Instr → Prop} (hW : W .cmpp) {s : State} (hp : s.phase = .tdone) :
    HeldUnless W s (cmppBody s) where
  coef _ := .inl ⟨by simp [hp, Phase.code], rfl⟩
  raw _ := .inl ⟨by simp [hp, Phase.code], rfl, rfl, rfl⟩
  temp _ := .inl ⟨by simp [hp, Phase.code], rfl, rfl⟩
  press _ := .inr hW
  hum := nofun

theorem cmphBody_heldUnless {W : Instr → Prop} (hW : W .cmph) {s : State} (hp : s.phase = .pdone) :
    HeldUnless W s (cmphBody s) where
  coef _ := .inl ⟨by simp [hp, Phase.code], rfl⟩
  raw _ := .inl ⟨by simp [hp, Phase.code], rfl, rfl, rfl⟩
  temp _ := .inl ⟨by simp [hp, Phase.code], rfl, rfl⟩
  press _ := .inl ⟨by simp [hp, Phase.code], rfl⟩
  hum _ := .inr hW

/-- An admitted body writes no register but its own. -/
theorem bodyOf_heldUnless {W : Instr → Prop} {i : Instr} (hW : W i) {s : State} (hadm : admits i s.phase = true) :
    HeldUnless W s (bodyOf i s) := by
  cases i with
  | ldcal => exact ldcalBody_heldUnless hW s
  | rdfrm => exact rdfrmBody_heldUnless hW (by simpa [admits] using hadm)
  | cmpt => exact cmptBody_heldUnless hW (by simpa [admits] using hadm)
  | cmpp => exact cmppBody_heldUnless hW (by simpa [admits] using hadm)
  | cmph => exact cmphBody_heldUnless hW (by simpa [admits] using hadm)

/-- A step writes no register but that of the command it runs. -/
theorem step_heldUnless {s t : State} (h : step s = .next t) : HeldUnless (fun i => s.issues (encode i)) s t := by
  obtain ⟨hr, hp⟩ | ⟨-, -, hr, hp⟩ | ⟨i, hi, hadm, rfl⟩ := step_regs_cases h
  · exact heldUnless_of_regs_eq hr (by rw [hp])
  · exact heldUnless_of_regs_eq hr (by simp [hp, Phase.code])
  · exact { bodyOf_heldUnless (s := s.popHost) (W := fun i => s.issues (encode i)) hi hadm with }

/-- Settles O46: `HeldUnless` read through the view, register by register. -/
theorem coefRawTFineAndResultsHaveOneWriter : Obligations.CoefRawTFineAndResultsHaveOneWriter := by
  intro s t h
  have hs := step_heldUnless h
  refine ⟨fun v hv => ?_, fun v hv => ?_, fun v hv => ?_, fun v hv => ?_, fun v hv => ?_, fun v hv => ?_,
    fun v hv => ?_, fun v hv => ?_⟩
  · obtain ⟨hc, rfl⟩ := (view_coef_eq_some t v).1 hv
    exact (hs.coef hc).imp_left (view_coef_eq_some s _).2
  · obtain ⟨hc, rfl⟩ := (view_adcP_eq_some t v).1 hv
    exact (hs.raw hc).imp_left fun ⟨hge, hP, _, _⟩ => (view_adcP_eq_some s _).2 ⟨hge, hP⟩
  · obtain ⟨hc, rfl⟩ := (view_adcT_eq_some t v).1 hv
    exact (hs.raw hc).imp_left fun ⟨hge, _, hT, _⟩ => (view_adcT_eq_some s _).2 ⟨hge, hT⟩
  · obtain ⟨hc, rfl⟩ := (view_adcH_eq_some t v).1 hv
    exact (hs.raw hc).imp_left fun ⟨hge, _, _, hH⟩ => (view_adcH_eq_some s _).2 ⟨hge, hH⟩
  · obtain ⟨hc, rfl⟩ := (view_tFine_eq_some t v).1 hv
    exact (hs.temp hc).imp_left fun ⟨hge, hF, _⟩ => (view_tFine_eq_some s _).2 ⟨hge, hF⟩
  · obtain ⟨hc, rfl⟩ := (view_tOut_eq_some t v).1 hv
    exact (hs.temp hc).imp_left fun ⟨hge, _, hO⟩ => (view_tOut_eq_some s _).2 ⟨hge, hO⟩
  · obtain ⟨hc, rfl⟩ := (view_pOut_eq_some t v).1 hv
    exact (hs.press hc).imp_left (view_pOut_eq_some s _).2
  · obtain ⟨hc, rfl⟩ := (view_hOut_eq_some t v).1 hv
    exact (hs.hum hc).imp_left (view_hOut_eq_some s _).2

/-! The coefficient file (R22). -/

/-- A calibrated core keeps its coefficients through every command it admits, and stays calibrated. -/
theorem bodyOf_keeps_coef {i : Instr} {s : State} (hadm : admits i s.phase = true) (hp : s.phase ≠ .nocal) :
    (bodyOf i s).coef = s.coef ∧ (bodyOf i s).phase ≠ .nocal := by
  cases i with
  | ldcal => exact absurd (by simpa [admits] using hadm) hp
  | rdfrm =>
    obtain h | h | ⟨F, -, h⟩ := rdfrmBody_cases s <;> rw [bodyOf, h]
    · exact ⟨rfl, hp⟩
    · exact ⟨rfl, nofun⟩
    · exact ⟨rfl, nofun⟩
  | cmpt | cmpp | cmph => exact ⟨rfl, nofun⟩

/-- `LDCAL` leaves the phase or ends in phase 1. -/
theorem ldcalBody_phase (s : State) : (ldcalBody s).phase = s.phase ∨ (ldcalBody s).phase = .idle := by
  obtain ⟨s₁, rfl | rfl, h | h⟩ | ⟨A, B, -, -, h⟩ := ldcalBody_cases s <;> rw [h]
  case inr => exact .inr rfl
  all_goals exact .inl rfl

/-- Without a reset a calibrated core keeps its coefficients and stays calibrated. -/
theorem step_keeps_coef {s t : State} (h : step s = .next t) (hp : s.phase ≠ .nocal)
    (hreset : ∀ rest, s.host ≠ .reset :: rest) : t.coef = s.coef ∧ t.phase ≠ .nocal := by
  obtain ⟨hr, ht⟩ | ⟨rest, hh, -, -⟩ | ⟨i, -, hadm, rfl⟩ := step_regs_cases h
  · exact ⟨((regs_eq_iff s t).1 hr).1.symm, ht ▸ hp⟩
  · exact absurd hh (hreset rest)
  · exact bodyOf_keeps_coef (s := s.popHost) hadm hp

/-- The only way out of phase 0 is an `LDCAL`, to phase 1. -/
theorem step_from_nocal {s t : State} (h : step s = .next t) (hp : s.phase = .nocal) :
    t.phase = .nocal ∨ s.issues 0x01#8 ∧ t.phase = .idle := by
  obtain ⟨-, ht⟩ | ⟨-, -, -, ht⟩ | ⟨i, hi, hadm, rfl⟩ := step_regs_cases h
  · exact .inl (ht.trans hp)
  · exact .inl ht
  · cases i with
    | ldcal => exact (ldcalBody_phase s.popHost).imp (fun h => h.trans hp) (fun h => ⟨hi, h⟩)
    | rdfrm | cmpt | cmpp | cmph => simp [admits, hp] at hadm

/-- Settles O45: a calibrated core keeps its coefficients, and from phase 0 there is no other way on than `LDCAL`. -/
theorem coefficientsLoadedOnceUntilReset : Obligations.CoefficientsLoadedOnceUntilReset := by
  constructor
  · intro s t h hp hreset
    obtain ⟨hcoef, ht⟩ := step_keeps_coef h hp hreset
    exact (view_coef_eq_some t _).2 ⟨Phase.one_le_code ht, hcoef⟩
  · intro s t c h ht hs
    have hp : s.phase = .nocal := by
      by_contra hp
      exact absurd (Phase.one_le_code hp) (by simpa using (view_coef_eq_none s).1 hs)
    obtain hn | ⟨hi, hidle⟩ := step_from_nocal h hp
    · simp [view_coef_eq_some, hn, Phase.code] at ht
    · exact ⟨hi, hp, hidle⟩

end Sys2Proof.Machine

/-! PROOFS of the family `20_memory.md`: what the core gets for a read, which reads each command issues, and what becomes of a read
that fails, has the wrong length, or is never answered. -/

/-! ### The reads of each command (spec/20_memory.md R64 to R66)

One equation per way the reads of `LDCAL` and `RDFRM` can go, and what a read takes from the script. -/

namespace Sys2Proof.Machine

/-- An admitted command runs its body. -/
theorem exec_of_admits {i : Instr} {s : State} (h : admits i s.phase = true) : exec i s = .next (bodyOf i s) := by
  rw [exec_eq_require, h, require_true]

/-- A command that is not admitted writes `ERR` only. -/
theorem exec_of_not_admits {i : Instr} {s : State} (h : admits i s.phase = false) :
    exec i s = .next (s.raise .sequenceError) := by
  rw [exec_eq_require, h, require_false]

theorem exec_ldcal_of_nocal {s : State} (hp : s.phase = .nocal) : exec .ldcal s = .next (ldcalBody s) :=
  exec_of_admits (decide_eq_true hp)

theorem exec_rdfrm_of_ne_nocal {s : State} (hp : s.phase ≠ .nocal) : exec .rdfrm s = .next (rdfrmBody s) :=
  exec_of_admits (decide_eq_true hp)

/-! `LDCAL`: the second read is issued only when the first got its bytes (R140). -/

theorem ldcalBody_of_first_silent {s : State} (h : (s.nextAnswer blockALen).outcome blockALen = .silent) :
    ldcalBody s = (s.afterRead blockAAddr blockALen).wait := by
  simp only [ldcalBody, memRead, h]

theorem ldcalBody_of_first_failed {s : State} (h : (s.nextAnswer blockALen).outcome blockALen = .failed) :
    ldcalBody s = (s.afterRead blockAAddr blockALen).raise .readFailed := by
  simp only [ldcalBody, memRead, h]

section SecondRead

variable {s : State} {A : List Byte} (hA : (s.nextAnswer blockALen).outcome blockALen = .got A)
include hA

theorem ldcalBody_of_second_silent
    (h : ((s.afterRead blockAAddr blockALen).nextAnswer blockBLen).outcome blockBLen = .silent) :
    ldcalBody s = ((s.afterRead blockAAddr blockALen).afterRead blockBAddr blockBLen).wait := by
  simp only [ldcalBody, memRead, hA, h]

theorem ldcalBody_of_second_failed
    (h : ((s.afterRead blockAAddr blockALen).nextAnswer blockBLen).outcome blockBLen = .failed) :
    ldcalBody s = ((s.afterRead blockAAddr blockALen).afterRead blockBAddr blockBLen).raise .readFailed := by
  simp only [ldcalBody, memRead, hA, h]

theorem ldcalBody_of_got {B : List Byte}
    (h : ((s.afterRead blockAAddr blockALen).nextAnswer blockBLen).outcome blockBLen = .got B) :
    ldcalBody s =
      (((s.afterRead blockAAddr blockALen).afterRead blockBAddr blockBLen).setCoef (caldec A B)).finish .idle := by
  simp only [ldcalBody, memRead, hA, h]

end SecondRead

/-! `RDFRM`: one read; the cycle in progress ends unless the read is never answered (R170). -/

theorem rdfrmBody_of_silent {s : State} (h : (s.nextAnswer frameLen).outcome frameLen = .silent) :
    rdfrmBody s = (s.afterRead frameAddr frameLen).wait := by
  simp only [rdfrmBody, memRead, h]

theorem rdfrmBody_of_failed {s : State} (h : (s.nextAnswer frameLen).outcome frameLen = .failed) :
    rdfrmBody s = (s.afterRead frameAddr frameLen).endCycle.raise .readFailed := by
  simp only [rdfrmBody, memRead, h]

theorem rdfrmBody_of_got {s : State} {F : List Byte} (h : (s.nextAnswer frameLen).outcome frameLen = .got F) :
    rdfrmBody s = ((s.afterRead frameAddr frameLen).endCycle.setRaw (rawP F) (rawT F) (rawH F)).finish .frame := by
  simp only [rdfrmBody, memRead, h]

/-! A read that finds a scripted answer. -/

/-- A read takes its scripted answer and leaves its request on record; no free value is drawn. -/
theorem afterRead_cons {s : State} {a : Answer} {rest : List Answer} (addr : Byte) (n : Nat) (h : s.transport = a :: rest) :
    s.afterRead addr n = { s with transport := rest, reads := s.reads ++ [⟨addr, n⟩] } := by
  simp [State.afterRead, h]

/-- Two reads that both find a scripted answer. -/
theorem afterRead_afterRead_cons {s : State} {a b : Answer} {rest : List Answer} (addr₁ addr₂ : Byte) (n₁ n₂ : Nat)
    (h : s.transport = a :: b :: rest) :
    (s.afterRead addr₁ n₁).afterRead addr₂ n₂ =
      { s with transport := rest, reads := s.reads ++ [⟨addr₁, n₁⟩, ⟨addr₂, n₂⟩] } := by
  rw [afterRead_cons addr₁ n₁ h, afterRead_cons addr₂ n₂ rfl, List.append_assoc, List.singleton_append]

/-- What a read gets is what its scripted answer is taken for. -/
theorem outcome_cons {s : State} {a : Answer} {rest : List Answer} (n : Nat) (h : s.transport = a :: rest) :
    (s.nextAnswer n).outcome n = a.outcome n := by
  rw [nextAnswer_cons n h]

/-- What the second of two reads gets. -/
theorem outcome_afterRead_cons {s : State} {a b : Answer} {rest : List Answer} (addr : Byte) (m n : Nat)
    (h : s.transport = a :: b :: rest) : ((s.afterRead addr m).nextAnswer n).outcome n = b.outcome n :=
  outcome_cons (rest := rest) n (by simp [h])

/-- Bytes of another length than asked for are a failure. -/
theorem outcome_bytes_of_length_ne {n : Nat} {b : List Byte} (h : b.length ≠ n) : (Answer.bytes b).outcome n = .failed := by
  simp [Answer.outcome, h]

/-- Settles O50, by the equations of `State.nextAnswer` and `Answer.outcome`. -/
theorem readGetsTheNextAnswer : Obligations.ReadGetsTheNextAnswer :=
  ⟨fun _ _ _ n h => nextAnswer_cons n h, fun _ _ h => outcome_bytes h, fun _ _ h => outcome_bytes_of_length_ne h,
    fun n => ⟨outcome_failure n, outcome_never n⟩, fun _ n h => unscripted_outcome n h⟩

/-! The record of the requests (R64). -/

/-- When block A is got, block B is asked for, whatever comes of it. -/
theorem ldcalBody_reads_of_got {s : State} {A : List Byte} (hA : (s.nextAnswer blockALen).outcome blockALen = .got A) :
    (ldcalBody s).reads = s.reads ++ [⟨blockAAddr, blockALen⟩, ⟨blockBAddr, blockBLen⟩] := by
  cases hB : ((s.afterRead blockAAddr blockALen).nextAnswer blockBLen).outcome blockBLen with
  | silent => simp [ldcalBody_of_second_silent hA hB]
  | failed => simp [ldcalBody_of_second_failed hA hB]
  | got B => simp [ldcalBody_of_got hA hB]

theorem rdfrmBody_reads (s : State) : (rdfrmBody s).reads = s.reads ++ [⟨frameAddr, frameLen⟩] := by
  obtain h | h | ⟨F, -, h⟩ := rdfrmBody_cases s <;> rw [h] <;> rfl

/-- A command that is not admitted issues no read. -/
theorem reads_of_not_admits {i : Instr} {s t : State} (hadm : admits i s.phase = false) (h : exec i s = .next t) :
    t.reads = s.reads := by
  rw [exec_of_not_admits hadm] at h
  cases h
  rfl

/-- A compensation issues no read. -/
theorem reads_of_compensation {i : Instr} {s t : State} (hi : i = .cmpt ∨ i = .cmpp ∨ i = .cmph)
    (h : exec i s = .next t) : t.reads = s.reads := by
  cases hadm : admits i s.phase with
  | false => exact reads_of_not_admits hadm h
  | true =>
    rw [exec_of_admits hadm] at h
    cases h
    rcases hi with rfl | rfl | rfl <;> rfl

/-- Settles O24: `LDCAL` by what its first read gets, `RDFRM` by its one read, and the others issue none. -/
theorem readsIssuedByEachCommand : Obligations.ReadsIssuedByEachCommand := by
  refine ⟨fun s t hp h => ?_, fun s t hp h => ?_, fun i s t hi h => reads_of_compensation hi h,
    fun i s t hadm h => reads_of_not_admits hadm h, fun s => rfl⟩
  · rw [exec_ldcal_of_nocal hp] at h
    cases h
    cases hA : (s.nextAnswer 26).outcome 26 with
    | silent => rw [ldcalBody_of_first_silent hA]; rfl
    | failed => rw [ldcalBody_of_first_failed hA]; rfl
    | got A => exact ldcalBody_reads_of_got hA
  · rw [exec_rdfrm_of_ne_nocal hp] at h
    cases h
    exact rdfrmBody_reads s

end Sys2Proof.Machine

/-! ### Answers of the wrong length, and reads that are never answered (spec/20_memory.md R65, R67) -/

namespace Sys2Proof.Machine

/-- The end of a cycle without a new frame: only the coefficients still hold values. -/
theorem endCycle_raise_view (s : State) (e : ErrCode) :
    (s.endCycle.raise e).view = ⟨.idle, e, some s.coef, none, none, none, none, none, none, none⟩ := rfl

/-- Settles O23: the answer is taken for a failure, so the body takes the branch of a failed read. -/
theorem wrongLengthCountsAsFailure : Obligations.WrongLengthCountsAsFailure := by
  intro s A b rest
  refine ⟨fun hp ht hb => ?_, fun hp ht hA hb => ?_, fun hp ht hb => ?_⟩
  · have hfail := (outcome_cons blockALen ht).trans (outcome_bytes_of_length_ne hb)
    rw [exec_ldcal_of_nocal hp, ldcalBody_of_first_failed hfail, afterRead_cons _ _ ht]
    rfl
  · have hgot := (outcome_cons blockALen ht).trans (outcome_bytes hA)
    have hfail := (outcome_afterRead_cons blockAAddr blockALen blockBLen ht).trans (outcome_bytes_of_length_ne hb)
    rw [exec_ldcal_of_nocal hp, ldcalBody_of_second_failed hgot hfail, afterRead_afterRead_cons _ _ _ _ ht]
    rfl
  · have hfail := (outcome_cons frameLen ht).trans (outcome_bytes_of_length_ne hb)
    rw [exec_rdfrm_of_ne_nocal hp, rdfrmBody_of_failed hfail, afterRead_cons _ _ ht]
    exact ⟨_, rfl, endCycle_raise_view _ _, rfl⟩

/-- While an operation waits and the host does nothing, the machine is stuck. -/
theorem step_waiting_nil {s : State} (hw : s.waiting = true) (hh : s.host = []) : step s = .fault .transportNeverAnswers := by
  simp [step, State.fetch, hw, hh]

/-- While an operation waits, a host read is held off. -/
theorem step_waiting_read {s : State} {k : Nat} {rest : List HostAction} (hw : s.waiting = true)
    (hh : s.host = .read k :: rest) : step s = .refused .hostHeldOff := by
  simp [step, State.fetch, hw, hh]

/-- While an operation waits, a host write is held off. -/
theorem step_waiting_write {s : State} {k : Nat} {w : Word} {rest : List HostAction} (hw : s.waiting = true)
    (hh : s.host = .write k w :: rest) : step s = .refused .hostHeldOff := by
  simp [step, State.fetch, hw, hh]

/-- After a reset the registers are as at the start, whatever they were. -/
theorem resetCore_view (s : State) : s.resetCore.view = State.reset.view := rfl

/-- A reset takes its host action and abandons the operation; it leaves the other surroundings. -/
theorem popHost_resetCore_env {s : State} {rest : List HostAction} (hh : s.host = .reset :: rest) :
    s.popHost.resetCore.env = { s.env with host := rest, waiting := false } := by
  simp [State.env, hh]

/-- Settles O35: an answer `never` is silence, on which the bodies only wait; then the step's cases of a waiting machine. -/
theorem unansweredReadWaitsForReset : Obligations.UnansweredReadWaitsForReset := by
  refine ⟨fun s rest hp ht => ?_, fun s A rest hp ht hA => ?_, fun s rest hp ht => ?_, fun s hw => ?_⟩
  · have hsilent := (outcome_cons blockALen ht).trans (outcome_never _)
    rw [exec_ldcal_of_nocal hp, ldcalBody_of_first_silent hsilent, afterRead_cons _ _ ht]
    rfl
  · have hgot := (outcome_cons blockALen ht).trans (outcome_bytes hA)
    have hsilent := (outcome_afterRead_cons blockAAddr blockALen blockBLen ht).trans (outcome_never _)
    rw [exec_ldcal_of_nocal hp, ldcalBody_of_second_silent hgot hsilent, afterRead_afterRead_cons _ _ _ _ ht]
    rfl
  · have hsilent := (outcome_cons frameLen ht).trans (outcome_never _)
    rw [exec_rdfrm_of_ne_nocal hp, rdfrmBody_of_silent hsilent, afterRead_cons _ _ ht]
    rfl
  · exact ⟨step_waiting_nil hw, fun _ _ => step_waiting_read hw, fun _ _ _ => step_waiting_write hw,
      fun _ hh => ⟨_, step_reset hh, resetCore_view _, popHost_resetCore_env hh⟩⟩

end Sys2Proof.Machine

/-! ### A transport that answers every read (spec/20_memory.md R67, spec/60_exceptions.md R262)

`State.TransportAnswers` is kept by every operation a step is made of: no read is silent, so no body waits. -/

namespace Sys2Proof.Machine

/-- A machine that is not waiting answers a next state. -/
theorem step_next_of_not_waiting {s : State} (hw : s.waiting = false) : ∃ t, step s = .next t := by
  rcases hh : s.host with _ | ⟨a, rest⟩
  · exact ⟨_, step_idle hw hh⟩
  · cases a with
    | reset => exact ⟨_, step_reset hh⟩
    | read k => exact ⟨_, step_read hw hh⟩
    | write k w =>
      by_cases hk : k = 0
      · subst hk
        obtain ⟨-, i, hd, -⟩ | ⟨hl, -⟩ := decode_cases (cmdByte w)
        · exact ⟨_, (step_decoded hw hh hd).trans (exec_eq_require i _)⟩
        · exact ⟨_, step_illegal hw hh hl⟩
      · exact ⟨_, step_write_other hw hh hk⟩

namespace State.TransportAnswers

variable {s : State}

/-- The next read is not silent: its answer is scripted and no `never`, or free. -/
theorem outcome_ne_silent (h : s.TransportAnswers) (n : Nat) : (s.nextAnswer n).outcome n ≠ .silent := by
  rw [Ne, outcome_silent_iff]
  cases ht : s.transport with
  | nil => exact nextAnswer_nil n ht ▸ freeAnswer_ne_never s.draws n
  | cons a rest => exact nextAnswer_cons n ht ▸ h.2 a (by simp [ht])

theorem afterRead (h : s.TransportAnswers) (addr : Byte) (n : Nat) : (s.afterRead addr n).TransportAnswers :=
  ⟨h.1, fun a ha => h.2 a (List.mem_of_mem_tail ha)⟩

theorem hostRead (h : s.TransportAnswers) (k : Nat) : (s.hostRead k).TransportAnswers := by
  obtain ⟨w, -, he⟩ | ⟨-, he⟩ := hostRead_cases k s <;> rw [he] <;> exact h

theorem resetCore (h : s.TransportAnswers) : s.resetCore.TransportAnswers := ⟨rfl, h.2⟩

theorem ldcalBody (h : s.TransportAnswers) : (ldcalBody s).TransportAnswers := by
  have h₁ := h.afterRead blockAAddr blockALen
  have h₂ := h₁.afterRead blockBAddr blockBLen
  cases hA : (s.nextAnswer blockALen).outcome blockALen with
  | silent => exact absurd hA (h.outcome_ne_silent _)
  | failed => rw [ldcalBody_of_first_failed hA]; exact h₁
  | got A =>
    cases hB : ((s.afterRead blockAAddr blockALen).nextAnswer blockBLen).outcome blockBLen with
    | silent => exact absurd hB (h₁.outcome_ne_silent _)
    | failed => rw [ldcalBody_of_second_failed hA hB]; exact h₂
    | got B => rw [ldcalBody_of_got hA hB]; exact h₂

theorem rdfrmBody (h : s.TransportAnswers) : (rdfrmBody s).TransportAnswers := by
  have h₁ := h.afterRead frameAddr frameLen
  cases hF : (s.nextAnswer frameLen).outcome frameLen with
  | silent => exact absurd hF (h.outcome_ne_silent _)
  | failed => rw [rdfrmBody_of_failed hF]; exact h₁
  | got F => rw [rdfrmBody_of_got hF]; exact h₁

/-- A compensation touches neither the wait nor the script. -/
theorem bodyOf (h : s.TransportAnswers) (i : Instr) : (bodyOf i s).TransportAnswers := by
  cases i with
  | ldcal => exact h.ldcalBody
  | rdfrm => exact h.rdfrmBody
  | cmpt | cmpp | cmph => exact h

theorem require (h : s.TransportAnswers) (c : Bool) (i : Instr) :
    (s.require c (Machine.bodyOf i)).TransportAnswers := by
  cases c with
  | true => exact h.bodyOf i
  | false => exact h

/-- Every step keeps the property, whatever the host does. -/
theorem step {t : State} (h : s.TransportAnswers) (hs : step s = .next t) : t.TransportAnswers := by
  have hpop : s.popHost.TransportAnswers := h
  obtain ⟨-, -, rfl⟩ | ⟨-, -, rfl⟩ | ⟨-, k, -, -, rfl⟩ | ⟨-, -, -, -, -, -, rfl⟩ | ⟨-, -, -, -, -, rfl⟩ |
    ⟨-, -, -, i, -, -, -, rfl⟩ := step_cases hs
  · exact h
  · exact hpop.resetCore
  · exact hpop.hostRead k
  · exact hpop
  · exact hpop
  · exact hpop.require _ i

end State.TransportAnswers

/-- Settles O51: a machine that is not waiting answers a next state, and every step keeps the property. -/
theorem stepKeepsTransportAnswering : Obligations.StepKeepsTransportAnswering := by
  intro s h
  obtain ⟨t, ht⟩ := step_next_of_not_waiting h.1
  exact ⟨t, ht, h.step ht⟩

/-- From a property that gives a next state and that the step keeps, a run never stops. -/
theorem safe_of_step_next {P : State → Prop} (hstep : ∀ s, P s → ∃ t, step s = .next t ∧ P t) {s : State} (hs : P s) :
    s.Safe := by
  intro n
  induction n generalizing s with
  | zero => exact ⟨s, run_zero s⟩
  | succ n ih =>
    obtain ⟨t, ht, hPt⟩ := hstep s hs
    obtain ⟨u, hu⟩ := ih hPt
    exact ⟨u, (run_next n ht).trans hu⟩

/-- Settles O47, by O51 along the run. -/
theorem answeredTransportNeverStops : Obligations.AnsweredTransportNeverStops :=
  fun _ => safe_of_step_next stepKeepsTransportAnswering

end Sys2Proof.Machine

/-! ### The sensor's address map (spec/20_memory.md R61, R77)

Position `i` of a block read from `addr` is the sensor register at `addr + i`. -/

namespace Sys2Proof.Machine

/-- The bytes of `sensorAnswer`: `n` registers of the image from `addr` on. -/
def sensorBlock (image : Byte → Byte) (addr : Byte) (n : Nat) : List Byte :=
  (List.range n).map (fun i => image (addr + BitVec.ofNat 8 i))

theorem sensorBlock_length (image : Byte → Byte) (addr : Byte) (n : Nat) : (sensorBlock image addr n).length = n := by
  simp [sensorBlock]

/-- A sensor gives as many bytes as asked for, so its answer is what the core gets. -/
theorem sensorAnswer_outcome (image : Byte → Byte) (addr : Byte) (n : Nat) :
    (sensorAnswer image addr n).outcome n = .got (sensorBlock image addr n) :=
  outcome_bytes (sensorBlock_length image addr n)

theorem byteAt_sensorBlock (image : Byte → Byte) (addr : Byte) {i n : Nat} (h : i < n) :
    byteAt (sensorBlock image addr n) i = image (addr + BitVec.ofNat 8 i) := by
  simp [byteAt, sensorBlock, h]

/-- Settles O11: both commands complete, and each byte a decoder takes is the register of its address. -/
theorem sensorAddressMap : Obligations.SensorAddressMap := by
  intro s image rest
  refine ⟨fun hp ht => ?_, fun hp ht => ?_⟩
  · have hA := (outcome_cons blockALen ht).trans (sensorAnswer_outcome image blockAAddr blockALen)
    have hB := (outcome_afterRead_cons blockAAddr blockALen blockBLen ht).trans
      (sensorAnswer_outcome image blockBAddr blockBLen)
    rw [exec_ldcal_of_nocal hp, ldcalBody_of_got hA hB, afterRead_afterRead_cons _ _ _ _ ht]
    refine ⟨_, rfl, rfl, rfl, rfl, ?_⟩
    simp [caldec, byteAt_sensorBlock, blockAAddr, blockALen, blockBAddr, blockBLen, u8, s8]
  · have hF := (outcome_cons frameLen ht).trans (sensorAnswer_outcome image frameAddr frameLen)
    rw [exec_rdfrm_of_ne_nocal hp, rdfrmBody_of_got hF, afterRead_cons _ _ ht]
    refine ⟨_, rfl, rfl, rfl, rfl, ?_⟩
    simp [rawP, rawT, rawH, byteAt_sensorBlock, frameAddr, frameLen]

end Sys2Proof.Machine

/-! PROOFS of the family `30_encoding.md`: how bytes make fields, the command byte, programs as bytes, and the assembler. -/

/-! ### Field assembly (spec/30_encoding.md R100 to R105)

Each field is a concatenation of bytes and nibbles: its unsigned number is read off the concatenation, and the number of a signed field
is the sign extension of that one. -/

namespace Sys2Proof.Machine

/-- A concatenation as a number: the left part stands above the bits of the right part. -/
theorem toNat_append_add {n m : Nat} (x : BitVec n) (y : BitVec m) : (x ++ y).toNat = x.toNat * 2 ^ m + y.toNat := by
  rw [BitVec.toNat_append, ← Nat.shiftLeft_add_eq_or_of_lt y.isLt, Nat.shiftLeft_eq]

theorem toNat_lowNibble (b : Byte) : (b.extractLsb' 0 4).toNat = b.toNat % 16 := by
  simp

theorem toNat_highNibble (b : Byte) : (b.extractLsb' 4 4).toNat = b.toNat / 16 := by
  have hb : b.toNat < 256 := b.isLt
  rw [BitVec.extractLsb'_toNat, Nat.shiftRight_eq_div_pow]
  omega

/-- Two's complement is the rule's sign extension of the unsigned number (spec/00_scope.md R10). -/
theorem sval_eq_sext {n : Nat} (v : BitVec n) (hn : 0 < n) : sval v = sext n v.toNat := by
  have hpow : 2 ^ n = 2 * 2 ^ (n - 1) := by rw [← pow_succ', Nat.sub_add_cancel hn]
  have hsign : 2 * v.toNat < 2 ^ n ↔ v.toNat < 2 ^ (n - 1) := by omega
  simp [sval, sext, BitVec.toInt_eq_toNat_cond, hsign]

/-- A field of `n` bits held in a wider signed register. -/
theorem sval_signExtend_eq_sext {n m : Nat} (v : BitVec n) (hn : 0 < n) (hm : n ≤ m) :
    sval (v.signExtend m) = sext n v.toNat :=
  (BitVec.toInt_signExtend_of_le hm).trans (sval_eq_sext v hn)

theorem uval_leU16 (lo hi : Byte) : uval (leU16 lo hi) = lo.toNat + 256 * hi.toNat := by
  rw [uval, leU16, toNat_append_add]
  omega

theorem sval_leS16 (lo hi : Byte) : sval (leS16 lo hi) = sext 16 (lo.toNat + 256 * hi.toNat) := by
  rw [leS16, sval_eq_sext _ (by decide), toNat_append_add]
  congr 1
  omega

theorem sval_nibbleH4 (b3 b4 : Byte) : sval (nibbleH4 b3 b4) = sext 12 (16 * b3.toNat + b4.toNat % 16) := by
  rw [nibbleH4, sval_signExtend_eq_sext _ (by decide) (by decide), toNat_append_add, toNat_lowNibble]
  congr 1
  omega

theorem sval_nibbleH5 (b4 b5 : Byte) : sval (nibbleH5 b4 b5) = sext 12 (b4.toNat / 16 + 16 * b5.toNat) := by
  rw [nibbleH5, sval_signExtend_eq_sext _ (by decide) (by decide), toNat_append_add, toNat_highNibble]
  congr 1
  omega

theorem uval_be20 (m k l : Byte) : uval (be20 m k l) = 4096 * m.toNat + 16 * k.toNat + l.toNat / 16 := by
  rw [uval, be20, toNat_append_add, toNat_append_add, toNat_highNibble]
  omega

theorem uval_be16 (m l : Byte) : uval (be16 m l) = 256 * m.toNat + l.toNat := by
  rw [uval, be16, toNat_append_add]
  omega

/-- Settles O5, one assembly function after the other. -/
theorem fieldsAssembleAsNumbers : Obligations.FieldsAssembleAsNumbers :=
  ⟨uval_leU16, sval_leS16, fun _ => rfl, fun b => sval_eq_sext b (by decide), sval_nibbleH4, sval_nibbleH5, uval_be20, uval_be16⟩

end Sys2Proof.Machine

/-! ### Data bits no field is made of (spec/30_encoding.md R107) -/

namespace Sys2Proof.Machine

/-- Replacing one byte leaves every other byte. -/
theorem byteAt_set_of_ne (b : List Byte) (x : Byte) {i j : Nat} (h : i ≠ j) : byteAt (b.set i x) j = byteAt b j := by
  simp [byteAt, List.getElem?_set_ne h]

theorem byteAt_set_same {b : List Byte} (x : Byte) {i : Nat} (h : i < b.length) : byteAt (b.set i x) i = x := by
  simp [byteAt, h]

/-- No coefficient is made of byte 24 of block A or of byte 7 of block B. -/
theorem caldec_set_unused (A B : List Byte) (x y : Byte) : caldec (A.set 24 x) (B.set 7 y) = caldec A B := by
  simp [caldec, byteAt_set_of_ne]

/-- `be20` takes only the high nibble of its last byte. -/
theorem be20_eq_of_highNibble_eq (m k : Byte) {l l' : Byte} (h : l.toNat / 16 = l'.toNat / 16) : be20 m k l = be20 m k l' := by
  have hl : l.extractLsb' 4 4 = l'.extractLsb' 4 4 :=
    BitVec.eq_of_toNat_eq (by rw [toNat_highNibble, toNat_highNibble, h])
  rw [be20, be20, hl]

section UnusedNibbles

variable {F : List Byte} {f2 f5 : Byte}

theorem rawP_set_lowNibbles (hF : F.length = 8) (h : f2.toNat / 16 = (byteAt F 2).toNat / 16) :
    rawP ((F.set 2 f2).set 5 f5) = rawP F := by
  have h2 : byteAt (F.set 2 f2) 2 = f2 := byteAt_set_same f2 (by omega)
  simpa [rawP, byteAt_set_of_ne, h2] using be20_eq_of_highNibble_eq _ _ h

theorem rawT_set_lowNibbles (hF : F.length = 8) (h : f5.toNat / 16 = (byteAt F 5).toNat / 16) :
    rawT ((F.set 2 f2).set 5 f5) = rawT F := by
  have h5 : byteAt ((F.set 2 f2).set 5 f5) 5 = f5 := byteAt_set_same f5 (by simp [hF])
  simpa [rawT, byteAt_set_of_ne, h5] using be20_eq_of_highNibble_eq _ _ h

theorem rawH_set_lowNibbles : rawH ((F.set 2 f2).set 5 f5) = rawH F := by
  simp [rawH, byteAt_set_of_ne]

end UnusedNibbles

/-- An `LDCAL` that finds both its blocks in the script. -/
theorem exec_ldcal_of_blocks {s : State} {A B : List Byte} {rest : List Answer} (hp : s.phase = .nocal)
    (ht : s.transport = .bytes A :: .bytes B :: rest) (hA : A.length = blockALen) (hB : B.length = blockBLen) :
    exec .ldcal s = .next ((({ s with
      transport := rest
      reads := s.reads ++ [⟨blockAAddr, blockALen⟩, ⟨blockBAddr, blockBLen⟩] } : State).setCoef (caldec A B)).finish .idle) := by
  have hgotA := (outcome_cons blockALen ht).trans (outcome_bytes hA)
  have hgotB := (outcome_afterRead_cons blockAAddr blockALen blockBLen ht).trans (outcome_bytes hB)
  rw [exec_ldcal_of_nocal hp, ldcalBody_of_got hgotA hgotB, afterRead_afterRead_cons _ _ _ _ ht]

/-- An `RDFRM` that finds its frame in the script. -/
theorem exec_rdfrm_of_frame {s : State} {F : List Byte} {rest : List Answer} (hp : s.phase ≠ .nocal)
    (ht : s.transport = .bytes F :: rest) (hF : F.length = frameLen) :
    exec .rdfrm s = .next ((({ s with
      transport := rest
      reads := s.reads ++ [⟨frameAddr, frameLen⟩] } : State).endCycle.setRaw (rawP F) (rawT F) (rawH F)).finish .frame) := by
  have hgot := (outcome_cons frameLen ht).trans (outcome_bytes hF)
  rw [exec_rdfrm_of_ne_nocal hp, rdfrmBody_of_got hgot, afterRead_cons _ _ ht]

/-- Settles O10: each command completes, and what it decodes from the changed bytes is what it decodes from the others. -/
theorem unusedDataBitsAreIgnored : Obligations.UnusedDataBitsAreIgnored := by
  refine ⟨fun s A B x y rest hp hA hB => ?_, fun s F f2 f5 rest hp hF h2 h5 => ?_⟩
  · have hA' : (A.set 24 x).length = blockALen := List.length_set.trans hA
    have hB' : (B.set 7 y).length = blockBLen := List.length_set.trans hB
    have run (A B : List Byte) := exec_ldcal_of_blocks (s := { s with transport := .bytes A :: .bytes B :: rest }) hp rfl
    rw [run _ _ hA' hB', run _ _ hA hB, caldec_set_unused]
  · have hF' : ((F.set 2 f2).set 5 f5).length = frameLen := by simp [hF, frameLen]
    have run (F : List Byte) := exec_rdfrm_of_frame (s := { s with transport := .bytes F :: rest }) hp rfl
    rw [run _ hF', run _ hF, rawP_set_lowNibbles hF h2, rawT_set_lowNibbles hF h5, rawH_set_lowNibbles]

end Sys2Proof.Machine

/-! ### The command byte and programs (spec/30_encoding.md R91, R108, R114) -/

namespace Sys2Proof

@[simp] theorem decode_encode (i : Instr) : decode (encode i) = .ok i := by
  cases i <;> rfl

theorem encode_of_decode {op : Byte} {i : Instr} (h : decode op = .ok i) : encode i = op := by
  obtain ⟨-, j, hj, hop⟩ | ⟨-, he⟩ := decode_cases op
  · rw [h] at hj
    cases hj
    exact hop
  · rw [h] at he
    cases he

/-- An illegal byte is refused by name. -/
theorem decode_of_illegal {op : Byte} (h : legalOpcode op = false) : decode op = .error (.illegalCommand op) :=
  ((decode_cases op).resolve_left (by simp [h])).2

/-- Settles O12: the map from the five encodings, and the refusals from what is legal. -/
theorem opcodeMap : Obligations.OpcodeMap := by
  refine ⟨rfl, rfl, rfl, rfl, rfl, decode_encode, fun op i => encode_of_decode, fun op h => decode_of_illegal ?_⟩
  simp only [legalOpcode, Bool.and_eq_false_iff, decide_eq_false_iff_not]
  omega

theorem decodeProgram_cons_of_ok {op : Byte} {i : Instr} {rest : List Byte} {p : List Instr} (hop : decode op = .ok i)
    (hrest : decodeProgram rest = .ok p) : decodeProgram (op :: rest) = .ok (i :: p) := by
  simp [decodeProgram, hop, hrest]

theorem decodeProgram_encodeProgram (p : List Instr) : decodeProgram (encodeProgram p) = .ok p := by
  induction p with
  | nil => rfl
  | cons i p ih => exact decodeProgram_cons_of_ok (decode_encode i) ih

theorem legalProgram_encodeProgram (p : List Instr) : legalProgram (encodeProgram p) = true := by
  simp [legalProgram, encodeProgram, legal_encode]

/-- Legal bytes are the bytes of a program, instruction by instruction. -/
theorem exists_encodeProgram_of_legal {bs : List Byte} (h : legalProgram bs = true) : ∃ p, encodeProgram p = bs := by
  induction bs with
  | nil => exact ⟨[], rfl⟩
  | cons op rest ih =>
    obtain ⟨hop, hrest⟩ : legalOpcode op = true ∧ legalProgram rest = true := by simpa [legalProgram] using h
    obtain ⟨p, rfl⟩ := ih hrest
    obtain ⟨-, i, -, rfl⟩ := (decode_cases op).resolve_right (by simp [hop])
    exact ⟨i :: p, rfl⟩

/-- Settles O13: encoding is one byte an instruction, so both directions go along the list. -/
theorem programBytesRoundTrip : Obligations.ProgramBytesRoundTrip := by
  refine ⟨rfl, fun i p => rfl, decodeProgram_encodeProgram, fun bs => ⟨fun h => ?_, ?_⟩, rfl⟩
  · obtain ⟨p, rfl⟩ := exists_encodeProgram_of_legal h
    exact ⟨p, decodeProgram_encodeProgram p, rfl⟩
  · rintro ⟨p, -, rfl⟩
    exact legalProgram_encodeProgram p

end Sys2Proof

/-! ### The assembler (spec/30_encoding.md R112, R113)

A name holds no character that ends or trims a line's word, in whatever case it is written; so a line is read as the name in upper case. -/

namespace Sys2Proof.Asm

/-- The characters a line's word cannot hold: the start of a comment, a blank, the end of a line. -/
def separates (c : Char) : Bool := c == ';' || isBlank c || c == '\n'

theorem separates_eq_false_iff (c : Char) : separates c = false ↔ c ≠ ';' ∧ isBlank c = false ∧ c ≠ '\n' := by
  simp [separates, and_assoc]

/-- The upper case of a separator is itself. -/
theorem upper_of_separates {c : Char} (h : separates c = true) : upper c = c := by
  have hc : c = ';' ∨ (c = ' ' ∨ c = '\t' ∨ c = '\r') ∨ c = '\n' := by simpa [separates, isBlank, or_assoc] using h
  rcases hc with rfl | (rfl | rfl | rfl) | rfl <;> rfl

theorem separates_of_mem_word {w m : List Char} (hm : ∀ c ∈ m, separates c = false) (hw : w.map upper = m) :
    ∀ c ∈ w, separates c = false := by
  intro c hc
  by_contra hs
  have hsep : separates c = true := by simpa using hs
  have hmem : c ∈ m := hw ▸ upper_of_separates hsep ▸ List.mem_map_of_mem hc
  rw [hm c hmem] at hsep
  cases hsep

theorem instrName_separates (i : Instr) : ∀ c ∈ i.mnemonic.toList, separates c = false := by
  cases i <;> simp [mnemonic_chars, separates, isBlank]

theorem pseudoName_separates (q : Pseudo) : ∀ c ∈ q.mnemonic.toList, separates c = false := by
  cases q <;> simp [pseudo_chars, separates, isBlank]

theorem upper_instrName (i : Instr) : i.mnemonic.toList.map upper = i.mnemonic.toList := by
  cases i <;> decide

/-- Trimming blanks at either end leaves a word as it is. -/
theorem dropWhile_isBlank_of_word {w : List Char} (h : ∀ c ∈ w, separates c = false) : w.dropWhile isBlank = w := by
  rw [List.dropWhile_eq_self_iff]
  intro hl
  obtain ⟨-, hblank, -⟩ := (separates_eq_false_iff _).1 (h _ (List.getElem_mem hl))
  simp [hblank]

/-- A word alone on its line. -/
theorem normal_of_word {w : List Char} (h : ∀ c ∈ w, separates c = false) : normal w = w.map upper := by
  have htake : w.takeWhile (fun c => c != ';') = w := by
    rw [List.takeWhile_eq_self_iff]
    intro c hc
    obtain ⟨hsemi, -⟩ := (separates_eq_false_iff c).1 (h c hc)
    exact bne_iff_ne.2 hsemi
  have hrev : ∀ c ∈ w.reverse, separates c = false := by simpa using h
  rw [normal, htake, dropWhile_isBlank_of_word h, dropWhile_isBlank_of_word hrev, List.reverse_reverse]

/-- A comment is no part of the line's word. -/
theorem normal_comment (l comment : List Char) : normal (l ++ ';' :: comment) = normal l := by
  have htake : (l ++ ';' :: comment).takeWhile (fun c => c != ';') = l.takeWhile (fun c => c != ';') := by
    induction l with
    | nil => rfl
    | cons c l ih => simp only [List.cons_append, List.takeWhile_cons, ih]
  rw [normal, normal, htake]

/-- A line whose word is a mnemonic. -/
theorem line_of_instrName {l : List Char} {i : Instr} (h : normal l = i.mnemonic.toList) : line l = some [i] := by
  simp only [line, h]
  cases i <;> decide

/-- A line whose word is a pseudo-instruction's name, which is no mnemonic. -/
theorem line_of_pseudoName {l : List Char} {q : Pseudo} (h : normal l = q.mnemonic.toList) : line l = some q.expand := by
  simp only [line, h]
  cases q <;> decide

/-- A name in any mixture of cases with a comment after it is read as the name. -/
theorem normal_of_name_comment {m w : List Char} (hm : ∀ c ∈ m, separates c = false) (hw : w.map upper = m)
    (comment : List Char) : normal (w ++ ';' :: comment) = m := by
  rw [normal_comment, normal_of_word (separates_of_mem_word hm hw), hw]

theorem line_mnemonic (i : Instr) : line i.mnemonic.toList = some [i] :=
  line_of_instrName ((normal_of_word (instrName_separates i)).trans (upper_instrName i))

theorem lines_ne_nil (text : List Char) : lines text ≠ [] := by
  cases text with
  | nil => simp [lines]
  | cons c rest =>
    unfold lines
    split
    · simp
    · split <;> simp

/-- The first line of a text ends at its first line end. -/
theorem lines_append_newline {l : List Char} (hl : '\n' ∉ l) (rest : List Char) :
    lines (l ++ '\n' :: rest) = l :: lines rest := by
  induction l with
  | nil =>
    obtain ⟨k, ks, hk⟩ := List.exists_cons_of_ne_nil (lines_ne_nil rest)
    simp [lines, hk]
  | cons c l ih =>
    obtain ⟨hc, hl⟩ : '\n' ≠ c ∧ '\n' ∉ l := by simpa using hl
    simp [lines, ih hl, hc.symm]

theorem program_append_newline {l rest : List Char} {is p : List Instr} (hl : '\n' ∉ l) (hline : line l = some is)
    (hrest : program rest = some p) : program (l ++ '\n' :: rest) = some (is ++ p) := by
  rw [program] at hrest
  rw [program, lines_append_newline hl, List.foldr_cons, hline, hrest]

theorem program_print (p : List Instr) : program (print p) = some p := by
  induction p with
  | nil => rfl
  | cons i p ih =>
    have hnl : '\n' ∉ i.mnemonic.toList := fun h => absurd (instrName_separates i _ h) (by decide)
    exact program_append_newline hnl (line_mnemonic i) ih

/-- Settles O14: a printed program line by line, and a name in any case as the word of its line. -/
theorem assemblerReadsMnemonics : Obligations.AssemblerReadsMnemonics :=
  ⟨program_print,
    fun i _ comment hw => line_of_instrName (normal_of_name_comment (instrName_separates i) hw comment),
    fun q _ comment hw => line_of_pseudoName (normal_of_name_comment (pseudoName_separates q) hw comment)⟩

end Sys2Proof.Asm

/-! PROOFS of the family `40_arithmetic.md`: the MAC unit's primitives against the rules' own mathematics (R123, R125, R127, R129). -/

namespace Sys2Proof.Machine

theorem asr_eq_floor (a : Int) (n : Nat) : asr a n = ⌊(a : ℚ) / 2 ^ n⌋ := by
  have h := Rat.floor_intCast_div_natCast a (2 ^ n)
  push_cast at h
  exact h.symm

/-- Division toward zero by sign and magnitude. The sign of the quotient is the product of the signs except where the
quotient is 0, and there the magnitude is 0 as well. -/
theorem tdiv_eq_sign_mul (a b : Int) : tdiv a b = a.sign * b.sign * ((a.natAbs / b.natAbs : Nat) : Int) := by
  have hmag : (a.tdiv b).natAbs = a.natAbs / b.natAbs := Int.natAbs_tdiv a b
  have hparts : tdiv a b = (a.tdiv b).sign * ((a.natAbs / b.natAbs : Nat) : Int) := by
    rw [← hmag, Int.sign_mul_natAbs, tdiv]
  rw [hparts, Int.sign_tdiv]
  split
  · next hlt => simp only [Nat.div_eq_of_lt hlt, Nat.cast_zero, mul_zero]
  · rfl

theorem wrapU32_congr (a : Int) : ∃ k : Int, wrapU32 a = a + k * 2 ^ 32 :=
  ⟨-(a / 2 ^ 32), by rw [wrapU32, Int.emod_def]; ring⟩

theorem wrapU32_add_mul (a k : Int) : wrapU32 (a + k * 2 ^ 32) = wrapU32 a :=
  Int.add_mul_emod_self_right a k (2 ^ 32)

theorem wrapU32_of_mem {x : Int} (h₀ : 0 ≤ x) (h₁ : x < 2 ^ 32) : wrapU32 x = x :=
  Int.emod_eq_of_lt h₀ h₁

/-- Settles O1: the general law, then the rule's six values by evaluation. -/
theorem rightShiftFloors : Obligations.RightShiftFloors :=
  ⟨asr_eq_floor, by decide⟩

/-- Settles O2; the law holds at `b = 0` too, where no rule reads it. -/
theorem divisionTruncatesTowardZero : Obligations.DivisionTruncatesTowardZero :=
  fun a b _ => tdiv_eq_sign_mul a b

/-- Settles O3: `wrapU32` gives such a value, and it does not tell congruent numbers apart and fixes those of its range. -/
theorem narrowingIsModulo : Obligations.NarrowingIsModulo := by
  intro a x
  constructor
  · rintro rfl
    obtain ⟨h₀, h₁⟩ := wrapU32_mem a
    exact ⟨h₀, h₁, wrapU32_congr a⟩
  · rintro ⟨h₀, h₁, k, hk⟩
    calc x = wrapU32 x := (wrapU32_of_mem h₀ h₁).symm
      _ = wrapU32 a := by rw [hk, wrapU32_add_mul]

/-- Settles O4, by the bounds of the right shift: adding 128, half of 256, turns the floor into rounding to nearest. -/
theorem temperatureRoundsToNearest : Obligations.TemperatureRoundsToNearest := by
  intro tf
  obtain ⟨hle, hlt⟩ : tempOut tf * 2 ^ 8 ≤ tf * 5 + 128 ∧ tf * 5 + 128 < tempOut tf * 2 ^ 8 + 2 ^ 8 :=
    asr_bounds (tf * 5 + 128) 8
  constructor <;> omega

end Sys2Proof.Machine

/-! PROOFS of the family `41_calibration_decode.md`: the layout of the two calibration blocks, and `LDCAL`. -/

/-! ### The layout as numbers (spec/41_calibration_decode.md R142 to R159) -/

namespace Sys2Proof.Machine

theorem fits12_iff (v : BitVec 16) : fits12 v = true ↔ -2048 ≤ v.toInt ∧ v.toInt ≤ 2047 := by
  simp [fits12]

/-- A 12-bit field held in a 16-bit register is a 12-bit value. -/
theorem fits12_signExtend (w : BitVec 12) : fits12 (w.signExtend 16) = true := by
  rw [fits12_iff, BitVec.toInt_signExtend_of_le (by decide)]
  exact ⟨w.le_toInt, Int.le_of_lt_add_one w.toInt_lt⟩

/-- Whatever the bytes, the decoder gives a well-formed coefficient file (spec/10_state.md R24). -/
theorem caldec_wf (A B : List Byte) : (caldec A B).wf = true :=
  Bool.and_eq_true_iff.mpr ⟨fits12_signExtend _, fits12_signExtend _⟩

/-- Settles O6: each coefficient is one assembly of the two bytes the rule names. -/
theorem caldecBlockACoefficients : Obligations.CaldecBlockACoefficients := fun _ _ =>
  ⟨uval_leU16 _ _, sval_leS16 _ _, sval_leS16 _ _, uval_leU16 _ _, sval_leS16 _ _, sval_leS16 _ _, sval_leS16 _ _, sval_leS16 _ _,
    sval_leS16 _ _, sval_leS16 _ _, sval_leS16 _ _, sval_leS16 _ _⟩

/-- Settles O7: each coefficient is one assembly of the bytes and nibbles the rule names. -/
theorem caldecHumidityCoefficients : Obligations.CaldecHumidityCoefficients := fun A B =>
  ⟨rfl, sval_leS16 _ _, rfl, sval_nibbleH4 _ _, sval_nibbleH5 _ _, sval_eq_sext _ (by decide), caldec_wf A B⟩

end Sys2Proof.Machine

/-! ### The layout and its inverse (R160)

A 16-bit coefficient is its two bytes. `dig_H4` and `dig_H5` are each a byte and a nibble of the one byte they share, and a 12-bit value
is the sign extension of its low 12 bits. -/

namespace Sys2Proof.Machine

@[simp] theorem loByte_append (hi lo : Byte) : loByte (hi ++ lo) = lo := BitVec.extractLsb'_append_eq_right

@[simp] theorem hiByte_append (hi lo : Byte) : hiByte (hi ++ lo) = hi := BitVec.extractLsb'_append_eq_left

@[simp] theorem hiByte_append_loByte (v : BitVec 16) : hiByte v ++ loByte v = v := BitVec.extractLsb'_append_extractLsb'

theorem toNat_loByte (v : BitVec 16) : (loByte v).toNat = v.toNat % 256 := by
  rw [loByte, BitVec.extractLsb'_toNat, Nat.shiftRight_zero]

theorem toNat_hiByte (v : BitVec 16) : (hiByte v).toNat = v.toNat / 256 := by
  have hv : v.toNat < 65536 := v.isLt
  rw [hiByte, BitVec.extractLsb'_toNat, Nat.shiftRight_eq_div_pow]
  omega

/-- Sign extension keeps the bits below it. -/
theorem extractLsb'_signExtend {n m start len : Nat} (v : BitVec n) (hn : start + len ≤ n) (hm : n ≤ m) :
    (v.signExtend m).extractLsb' start len = v.extractLsb' start len := by
  ext i hi
  have hin : start + i < n := by omega
  have him : start + i < m := by omega
  simp only [BitVec.getElem_extractLsb', BitVec.getLsbD_signExtend, hin, him, decide_true, Bool.true_and, if_true]

/-- A 12-bit value in a 16-bit register is the sign extension of its low 12 bits. -/
theorem signExtend_low12 {v : BitVec 16} (h : fits12 v = true) : (v.extractLsb' 0 12).signExtend 16 = v := by
  obtain ⟨hlo, hhi⟩ := (fits12_iff v).mp h
  apply BitVec.eq_of_toInt_eq
  calc ((v.extractLsb' 0 12).signExtend 16).toInt
      = (v.toNat : Int).bmod (2 ^ 12) := by
        rw [← BitVec.setWidth_eq_extractLsb' (by decide), BitVec.toInt_signExtend_of_le (by decide), BitVec.toInt_setWidth]
    _ = v.toInt.bmod (2 ^ 12) := by rw [BitVec.toInt_eq_toNat_bmod, Int.bmod_bmod_of_dvd (by decide)]
    _ = v.toInt := Int.bmod_eq_of_le hlo (Int.lt_add_one_of_le hhi)

/-- `dig_H4` from its byte and the low nibble of the shared byte. -/
theorem nibbleH4_of_fits12 {v : BitVec 16} (h : fits12 v = true) (n : BitVec 4) :
    nibbleH4 (v.extractLsb' 4 8) (n ++ v.extractLsb' 0 4) = v := by
  rw [nibbleH4, BitVec.extractLsb'_append_eq_right, BitVec.extractLsb'_append_extractLsb'_eq_extractLsb' (show 4 = 0 + 4 from rfl)]
  exact signExtend_low12 h

/-- `dig_H5` from the high nibble of the shared byte and its byte. -/
theorem nibbleH5_of_fits12 {v : BitVec 16} (h : fits12 v = true) (n : BitVec 4) :
    nibbleH5 (v.extractLsb' 0 4 ++ n) (v.extractLsb' 4 8) = v := by
  rw [nibbleH5, BitVec.extractLsb'_append_eq_left, BitVec.extractLsb'_append_extractLsb'_eq_extractLsb' (show 4 = 0 + 4 from rfl)]
  exact signExtend_low12 h

theorem caldec_calenc {c : Coefs} (h : c.wf = true) : caldec (calencA c) (calencB c) = c := by
  obtain ⟨h4, h5⟩ := Bool.and_eq_true_iff.mp h
  simp [caldec, calencA, calencB, byteAt, leU16, leS16, u8, s8, nibbleH4_of_fits12 h4, nibbleH5_of_fits12 h5]

/-- The byte of `dig_H4`'s high bits. -/
theorem nibbleH4_high (b3 b4 : Byte) : (nibbleH4 b3 b4).extractLsb' 4 8 = b3 := by
  rw [nibbleH4, extractLsb'_signExtend _ (by decide) (by decide), BitVec.extractLsb'_append_eq_left]

theorem nibbleH4_low (b3 b4 : Byte) : (nibbleH4 b3 b4).extractLsb' 0 4 = b4.extractLsb' 0 4 := by
  rw [nibbleH4, extractLsb'_signExtend _ (by decide) (by decide), BitVec.extractLsb'_append_eq_right]

theorem nibbleH5_high (b4 b5 : Byte) : (nibbleH5 b4 b5).extractLsb' 4 8 = b5 := by
  rw [nibbleH5, extractLsb'_signExtend _ (by decide) (by decide), BitVec.extractLsb'_append_eq_left]

theorem nibbleH5_low (b4 b5 : Byte) : (nibbleH5 b4 b5).extractLsb' 0 4 = b4.extractLsb' 4 4 := by
  rw [nibbleH5, extractLsb'_signExtend _ (by decide) (by decide), BitVec.extractLsb'_append_eq_right]

/-- A byte is its two nibbles. -/
theorem highNibble_append_lowNibble (b : Byte) : (b.extractLsb' 4 4 ++ b.extractLsb' 0 4 : BitVec 8) = b :=
  BitVec.extractLsb'_append_extractLsb'

/-- A block is the sequence of its bytes. -/
theorem eq_map_byteAt {b : List Byte} {n : Nat} (h : b.length = n) : b = (List.range n).map (byteAt b) := by
  refine List.ext_getElem (by simp [h]) fun i hi _ => ?_
  simp [byteAt, hi]

theorem calencA_caldec {A : List Byte} (hA : A.length = 26) (B : List Byte) : calencA (caldec A B) = A.set 24 0 := by
  rw [eq_map_byteAt (List.length_set.trans hA)]
  simp [List.range_succ, calencA, caldec, leU16, leS16, u8, byteAt_set_of_ne, byteAt_set_same, hA]

theorem calencB_caldec (A : List Byte) {B : List Byte} (hB : B.length = 8) : calencB (caldec A B) = B.set 7 0 := by
  rw [eq_map_byteAt (List.length_set.trans hB)]
  simp [List.range_succ, calencB, caldec, leS16, u8, s8, byteAt_set_of_ne, byteAt_set_same, hB, nibbleH4_high, nibbleH4_low, nibbleH5_high,
    nibbleH5_low, highNibble_append_lowNibble]

/-- Bits 11..4, the high part of a 12-bit value. -/
theorem toNat_bits4to11 (v : BitVec 16) : (v.extractLsb' 4 8).toNat = v.toNat % 4096 / 16 := by
  rw [BitVec.extractLsb'_toNat, Nat.shiftRight_eq_div_pow]
  omega

theorem toNat_bits0to3 (v : BitVec 16) : (v.extractLsb' 0 4).toNat = v.toNat % 16 := by
  rw [BitVec.extractLsb'_toNat, Nat.shiftRight_zero]

/-- The byte shared by `dig_H4` and `dig_H5`. -/
theorem toNat_sharedByte (v4 v5 : BitVec 16) :
    (v5.extractLsb' 0 4 ++ v4.extractLsb' 0 4 : BitVec 8).toNat = v4.toNat % 16 + 16 * (v5.toNat % 16) := by
  rw [toNat_append_add, toNat_bits0to3, toNat_bits0to3]
  omega

/-- Settles O8: the two round trips, then the bytes of `calenc` as numbers. -/
theorem calibrationLayoutRoundTrips : Obligations.CalibrationLayoutRoundTrips :=
  ⟨fun _ h => caldec_calenc h, fun A B hA hB => ⟨calencA_caldec hA B, calencB_caldec A hB⟩,
    fun v => ⟨toNat_loByte v, toNat_hiByte v⟩,
    fun c => ⟨toNat_bits4to11 c.digH4, toNat_sharedByte c.digH4 c.digH5, toNat_bits4to11 c.digH5⟩⟩

end Sys2Proof.Machine

/-! ### `LDCAL` (R140) -/

namespace Sys2Proof.Machine

/-- Two reads, each with a scripted answer or a free one. -/
theorem afterRead_afterRead_eq (addr₁ addr₂ : Byte) (n₁ n₂ : Nat) (s : State) :
    (s.afterRead addr₁ n₁).afterRead addr₂ n₂ =
      { s with transport := s.transport.drop 2, draws := s.draws + (2 - s.transport.length),
               reads := s.reads ++ [⟨addr₁, n₁⟩, ⟨addr₂, n₂⟩] } := by
  have hdraws : s.draws + (1 - s.transport.length) + (1 - (s.transport.length - 1)) = s.draws + (2 - s.transport.length) := by
    omega
  simp [afterRead_eq, hdraws]

/-- Settles O21, by what the two reads get. -/
theorem ldcalLoadsCalibration : Obligations.LdcalLoadsCalibration := by
  intro s A B
  refine ⟨fun hp hA hB => ?_, fun hp hA => ?_, fun hp hA hB => ?_, fun hp => exec_of_not_admits (decide_eq_false hp)⟩
  · rw [exec_ldcal_of_nocal hp, ldcalBody_of_got hA hB, afterRead_afterRead_eq]
    rfl
  · rw [exec_ldcal_of_nocal hp, ldcalBody_of_first_failed hA, afterRead_eq]
    rfl
  · rw [exec_ldcal_of_nocal hp, ldcalBody_of_second_failed hA hB, afterRead_afterRead_eq]
    rfl

end Sys2Proof.Machine

/-! PROOFS of the family `42_raw_frame_decode.md`: the raw values of a frame, and `RDFRM`. -/

/-! ### The raw frame as numbers, and `RDFRM` (spec/42_raw_frame_decode.md R170 to R173) -/

namespace Sys2Proof.Machine

/-- Settles O9: each raw register is one assembly of the three or two bytes the rule names. -/
theorem rawFrameValues : Obligations.RawFrameValues := fun _ =>
  ⟨uval_be20 _ _ _, uval_be20 _ _ _, uval_be16 _ _⟩

/-- A cycle begun with a new frame: the coefficients and the raw registers hold values, `T_FINE` and the results do not. -/
theorem setRaw_finish_view (s : State) (p t : BitVec 20) (h : BitVec 16) :
    ((s.endCycle.setRaw p t h).finish .frame).view =
      ⟨.frame, .noError, some s.coef, some p, some t, some h, none, none, none, none⟩ := rfl

/-- Settles O22, by what the one read gets: the branch of the body decides the view, the read itself the surroundings. -/
theorem rdfrmReadsFrame : Obligations.RdfrmReadsFrame := by
  intro s F
  refine ⟨fun hp hF => ?_, fun hp hfail => ?_, fun hp => exec_of_not_admits (decide_eq_false (not_not.mpr hp))⟩
  · rw [exec_rdfrm_of_ne_nocal hp, rdfrmBody_of_got hF, afterRead_eq]
    exact ⟨_, rfl, setRaw_finish_view _ _ _ _, rfl⟩
  · rw [exec_rdfrm_of_ne_nocal hp, rdfrmBody_of_failed hfail, afterRead_eq]
    exact ⟨_, rfl, endCycle_raise_view _ _, rfl⟩

end Sys2Proof.Machine

/-! PROOFS of the family `43_temperature.md`: `CMPT`. -/

/-! ### `CMPT` (spec/43_temperature.md R180)

The formula as quotients of integers, and the two registers it is narrowed to, which hold it without loss (R131). -/

namespace Sys2Proof.Machine

/-- `t_fine` with each shift written as the product or the quotient it is (spec/40_arithmetic.md R123, R124). -/
theorem tempFine_eq_div (adc T1 T2 T3 : Int) :
    tempFine adc T1 T2 T3 =
      (adc / 8 - T1 * 2) * T2 / 2048 + (adc / 16 - T1) * (adc / 16 - T1) / 4096 * T3 / 16384 := rfl

theorem tempOut_eq_div (tf : Int) : tempOut tf = (tf * 5 + 128) / 256 := rfl

theorem exec_cmpt_of_frame {s : State} (hp : s.phase = .frame) : exec .cmpt s = .next (cmptBody s) :=
  exec_of_admits (decide_eq_true hp)

/-- What `CMPT` leaves unchanged. -/
theorem cmptBody_frame (s : State) :
    cmptBody s = { s with tFine := (cmptBody s).tFine, tOut := (cmptBody s).tOut, phase := .tdone, err := .noError } := rfl

/-- `T_FINE` holds `t_fine` without loss (spec/10_state.md R28). -/
theorem sval_cmptBody_tFine (s : State) : sval (cmptBody s).tFine = s.tempOfRegs.2 := by
  obtain ⟨hlo, hhi, -, -⟩ := tFineStaysInRange s.adcT s.coef.digT1 s.coef.digT2 s.coef.digT3
  exact toInt_ofInt32 (le_trans (by decide) hlo) (lt_of_le_of_lt hhi (by decide))

/-- `T_OUT` holds the temperature without loss (spec/10_state.md R29). -/
theorem sval_cmptBody_tOut (s : State) : sval (cmptBody s).tOut = s.tempOfRegs.1 := by
  obtain ⟨-, -, hlo, hhi⟩ := tFineStaysInRange s.adcT s.coef.digT1 s.coef.digT2 s.coef.digT3
  exact toInt_ofInt32 (le_trans (by decide) hlo) (lt_of_le_of_lt hhi (by decide))

/-- Settles O25: an admitted `CMPT` writes two values that fit their registers, and a refused one raises `SequenceError`. -/
theorem cmptComputesTemperature : Obligations.CmptComputesTemperature := by
  intro s
  refine ⟨fun hp => ⟨cmptBody s, exec_cmpt_of_frame hp, cmptBody_frame s, ?_, ?_⟩,
    fun hp => exec_of_not_admits (decide_eq_false hp)⟩
  · exact (sval_cmptBody_tFine s).trans (tempFine_eq_div _ _ _ _)
  · rw [sval_cmptBody_tOut, State.tempOfRegs, compT, tempOut_eq_div, tempFine_eq_div]

end Sys2Proof.Machine

/-! PROOFS of the family `44_pressure.md`: `CMPP`. -/

/-! ### `CMPP` (spec/44_pressure.md R190)

The stages as products and quotients of integers, and `P_OUT`, which holds the narrowed result whatever the registers hold. -/

namespace Sys2Proof.Machine

/-! Each stage with its shifts written as the products and quotients they are (spec/40_arithmetic.md R123, R124). -/

/-- Stage 1 (R191). -/
theorem pressV1_eq_div (tf : Int) : pressV1 tf = tf / 2 - 64000 := rfl

/-- Stage 1, the square (R191). -/
theorem pressQ2_eq_div (tf : Int) : pressQ2 tf = pressV1 tf / 4 * (pressV1 tf / 4) := rfl

/-- Stage 2 (R192). -/
theorem pressV2c_eq_div (P4 P5 P6 tf : Int) :
    pressV2c P4 P5 P6 tf = (pressQ2 tf / 2048 * P6 + pressV1 tf * P5 * 2) / 4 + P4 * 65536 := rfl

/-- Stage 3, before the scaling by `dig_P1` (R193). -/
theorem pressV1b_eq_div (P2 P3 tf : Int) :
    pressV1b P2 P3 tf = (P3 * (pressQ2 tf / 8192) / 8 + P2 * pressV1 tf / 2) / 262144 := rfl

/-- Stage 3, the divisor (R193). -/
theorem pressV1c_eq_div (P1 P2 P3 tf : Int) : pressV1c P1 P2 P3 tf = (32768 + pressV1b P2 P3 tf) * P1 / 32768 := rfl

/-- Stage 4, the numerator (R195). -/
theorem pressNum_eq_div (adc v2c : Int) : pressNum adc v2c = ((1048576 - adc) - v2c / 4096) * 3125 := rfl

/-- Stage 4, the two ways to double the quotient (R195). -/
theorem pressQuot_eq_tdiv (N v1c : Int) :
    pressQuot N v1c = if N < 2147483648 then Int.tdiv (N * 2) v1c else Int.tdiv N v1c * 2 := rfl

/-- Stage 5 (R196). -/
theorem pressFinal_eq_div (P7 P8 P9 p : Int) :
    pressFinal P7 P8 P9 p = p + (P9 * (p / 8 * (p / 8) / 8192) / 4096 + p / 4 * P8 / 8192 + P7) / 16 := rfl

/-- Stage 6 (R197). -/
theorem wrapU32_eq_emod (a : Int) : wrapU32 a = a % 4294967296 := rfl

/-- The result of the stages: the sentinel 0 for a zero divisor (R194), else the narrowed value (R197). -/
theorem compP_eq_ite (adc P1 P2 P3 P4 P5 P6 P7 P8 P9 tf : Int) :
    compP adc P1 P2 P3 P4 P5 P6 P7 P8 P9 tf =
      if pressV1c P1 P2 P3 tf = 0 then 0
      else wrapU32 (pressFinal P7 P8 P9 (pressQuot (pressNum adc (pressV2c P4 P5 P6 tf)) (pressV1c P1 P2 P3 tf))) := rfl

/-- The pressure is a 32-bit number whatever its arguments: the sentinel 0 (R194) or a narrowed value (R197). -/
theorem compP_mem (adc P1 P2 P3 P4 P5 P6 P7 P8 P9 tf : Int) :
    0 ≤ compP adc P1 P2 P3 P4 P5 P6 P7 P8 P9 tf ∧ compP adc P1 P2 P3 P4 P5 P6 P7 P8 P9 tf < 2 ^ 32 := by
  rw [compP_eq_ite]
  split
  · decide
  · exact wrapU32_mem _

theorem exec_cmpp_of_tdone {s : State} (hp : s.phase = .tdone) : exec .cmpp s = .next (cmppBody s) :=
  exec_of_admits (decide_eq_true hp)

/-- What `CMPP` leaves unchanged. -/
theorem cmppBody_frame (s : State) :
    cmppBody s = { s with pOut := (cmppBody s).pOut, phase := .pdone, err := .noError } := rfl

/-- `P_OUT` holds the narrowed result without further loss (spec/10_state.md R29). -/
theorem uval_cmppBody_pOut (s : State) : uval (cmppBody s).pOut = s.pressOfRegs := by
  obtain ⟨hlo, hhi⟩ : 0 ≤ s.pressOfRegs ∧ s.pressOfRegs < 2 ^ 32 := compP_mem ..
  exact toNat_ofInt32 hlo hhi

/-- Settles O27: an admitted `CMPP` writes the narrowed result of the stages, and a refused one raises `SequenceError`. -/
theorem cmppComputesPressure : Obligations.CmppComputesPressure := by
  intro s
  refine ⟨fun hp => ⟨cmppBody s, exec_cmpp_of_tdone hp, cmppBody_frame s, ?_⟩,
    fun hp => exec_of_not_admits (decide_eq_false hp)⟩
  rw [uval_cmppBody_pOut, State.pressOfRegs, compP_eq_ite, wrapU32_eq_emod, pressFinal_eq_div, pressQuot_eq_tdiv, pressNum_eq_div,
    pressV2c_eq_div, pressV1c_eq_div, pressV1b_eq_div, pressQ2_eq_div, pressV1_eq_div]

end Sys2Proof.Machine

/-! PROOFS of the family `45_humidity.md`: `CMPH`. -/

/-! ### `CMPH` (spec/45_humidity.md R210)

The saturation bounds the result whatever the arguments are, so `H_OUT` holds it without loss; the stages are products and quotients of
integers. -/

namespace Sys2Proof.Machine

/-- Saturation to a closed range in two steps (spec/40_arithmetic.md R126). -/
theorem clamp_eq_max_min {lo hi : Int} (h : lo ≤ hi) (a : Int) : clamp lo hi a = max lo (min a hi) := by
  unfold clamp
  split
  · omega
  · split <;> omega

/-! Each stage with its shifts written as the products and quotients they are (spec/40_arithmetic.md R123, R124). -/

/-- Stage 1 (R211). -/
theorem humV_eq_sub (tf : Int) : humV tf = tf - 76800 := rfl

/-- Stage 1, the raw term (R211). -/
theorem humA_eq_div (adc H4 H5 tf : Int) :
    humA adc H4 H5 tf = (adc * 16384 - H4 * 1048576 - H5 * humV tf + 16384) / 32768 := rfl

/-- Stage 2, the gain (R212). -/
theorem humB_eq_div (H2 H3 H6 tf : Int) :
    humB H2 H3 H6 tf =
      ((humV tf * H6 / 1024 * (humV tf * H3 / 2048 + 32768) / 1024 + 2097152) * H2 + 8192) / 16384 := rfl

/-- Stage 2, the `dig_H1` term (R212). -/
theorem humX2_eq_div (H1 x : Int) : humX2 H1 x = x - x / 32768 * (x / 32768) / 128 * H1 / 16 := rfl

/-- Stage 3 (R213). -/
theorem humSaturate_eq_div (x2 : Int) : humSaturate x2 = max 0 (min x2 419430400) / 4096 :=
  congrArg (· / 4096) (clamp_eq_max_min (by decide) x2)

/-- Stage 3 scales the clamp's bounds down with the value (R213). -/
theorem humSaturate_mem (x2 : Int) : 0 ≤ humSaturate x2 ∧ humSaturate x2 ≤ 102400 := by
  obtain ⟨hlo, hhi⟩ := clamp_mem (lo := 0) (hi := 419430400) (by decide) x2
  exact ⟨le_asr (by omega), asr_le (by omega)⟩

/-- Settles O30: the last stage bounds the result whatever the earlier stages give. -/
theorem humidityStaysInRange : Obligations.HumidityStaysInRange := fun _ _ _ _ _ _ _ _ => humSaturate_mem _

theorem exec_cmph_of_pdone {s : State} (hp : s.phase = .pdone) : exec .cmph s = .next (cmphBody s) :=
  exec_of_admits (decide_eq_true hp)

/-- What `CMPH` leaves unchanged, whatever value it writes: the formula plays no part, and is kept out of the comparison. -/
theorem cmphBody_frame (s : State) :
    cmphBody s = { s with hOut := (cmphBody s).hOut, phase := .hdone, err := .noError } := by
  unfold cmphBody
  generalize s.humOfRegs = h
  rfl

/-- `H_OUT` holds the humidity without loss (spec/10_state.md R29). -/
theorem uval_cmphBody_hOut (s : State) : uval (cmphBody s).hOut = s.humOfRegs := by
  obtain ⟨hlo, hhi⟩ : 0 ≤ s.humOfRegs ∧ s.humOfRegs ≤ 102400 := humidityStaysInRange ..
  exact toNat_ofInt32 hlo (lt_of_le_of_lt hhi (by decide))

/-- Settles O29: an admitted `CMPH` writes the saturated result of the stages, and a refused one raises `SequenceError`. -/
theorem cmphComputesHumidity : Obligations.CmphComputesHumidity := by
  intro s
  refine ⟨fun hp => ⟨cmphBody s, exec_cmph_of_pdone hp, cmphBody_frame s, ?_⟩,
    fun hp => exec_of_not_admits (decide_eq_false hp)⟩
  rw [uval_cmphBody_hOut, State.humOfRegs, compH, humSaturate_eq_div, humX2_eq_div, humA_eq_div, humB_eq_div, humV_eq_sub]

end Sys2Proof.Machine

/-! PROOFS of the family `46_sequencer.md`: the step, the invariant of the reading cycle, the transition table, and the
pseudo-instructions as the host issues them. -/

/-! ### The reading cycle stays coherent (spec/46_sequencer.md R234)

In phase 0 nothing is held, so nothing has to be coherent. A step that writes no result keeps the invariant; each command's body
writes the result it computes, and moves on to the phase in which exactly that result is new. -/

namespace Sys2Proof.Machine

/-- In phase 0 no register holds a value, so the cycle is coherent whatever the bits are. -/
theorem coherent_of_nocal {s : State} (hp : s.phase = .nocal) : s.Coherent := by
  simp [State.Coherent, State.calValid, State.tValid, State.pValid, State.hValid, hp, Phase.code]

/-- Settles O43: reset is to phase 0. -/
theorem cycleCoherentAtReset : Obligations.CycleCoherentAtReset := coherent_of_nocal rfl

/-! The formulas read the registers only. -/

theorem tempOfRegs_of_regs_eq {s t : State} (h : s.regs = t.regs) : s.tempOfRegs = t.tempOfRegs := by
  obtain ⟨hcoef, ⟨-, hT, -⟩, -, -, -⟩ := (regs_eq_iff s t).1 h
  rw [State.tempOfRegs, State.tempOfRegs, hcoef, hT]

theorem pressOfRegs_of_regs_eq {s t : State} (h : s.regs = t.regs) : s.pressOfRegs = t.pressOfRegs := by
  obtain ⟨hcoef, ⟨hP, -, -⟩, ⟨hF, -⟩, -, -⟩ := (regs_eq_iff s t).1 h
  rw [State.pressOfRegs, State.pressOfRegs, hcoef, hP, hF]

theorem humOfRegs_of_regs_eq {s t : State} (h : s.regs = t.regs) : s.humOfRegs = t.humOfRegs := by
  obtain ⟨hcoef, ⟨-, -, hH⟩, ⟨hF, -⟩, -, -⟩ := (regs_eq_iff s t).1 h
  rw [State.humOfRegs, State.humOfRegs, hcoef, hH, hF]

namespace State.Coherent

variable {s t : State}

/-- The invariant, with each validity condition as a bound on the number of the phase. -/
theorem iff_code (s : State) : s.Coherent ↔
    (1 ≤ s.phase.code → s.coef.wf = true) ∧
    (3 ≤ s.phase.code → sval s.tOut = s.tempOfRegs.1 ∧ sval s.tFine = s.tempOfRegs.2) ∧
    (4 ≤ s.phase.code → uval s.pOut = s.pressOfRegs) ∧
    (s.phase.code = 5 → uval s.hOut = s.humOfRegs) := by
  simp only [State.Coherent, State.calValid, State.tValid, State.pValid, State.hValid, decide_eq_true_eq]

/-- With the same bits and no later phase, what is still held is coherent as before. -/
theorem of_regs_eq (h : s.Coherent) (hr : s.regs = t.regs) (hp : t.phase.code ≤ s.phase.code) : t.Coherent := by
  obtain ⟨hcal, htemp, hpress, hhum⟩ := (iff_code s).1 h
  obtain ⟨hcoef, -, ⟨hF, hO⟩, hP, hH⟩ := (regs_eq_iff s t).1 hr
  rw [hcoef] at hcal
  rw [hO, hF, tempOfRegs_of_regs_eq hr] at htemp
  rw [hP, pressOfRegs_of_regs_eq hr] at hpress
  rw [hH, humOfRegs_of_regs_eq hr] at hhum
  exact (iff_code t).2 ⟨fun hc => hcal (hc.trans hp), fun hc => htemp (hc.trans hp), fun hc => hpress (hc.trans hp),
    fun hc => hhum (le_antisymm s.phase.code_le (hc.symm.le.trans hp))⟩

/-- What a decoder gives is well formed, and no result is held in phase 1. -/
theorem ldcalBody (h : s.Coherent) : (ldcalBody s).Coherent := by
  obtain ⟨s₁, rfl | rfl, hb | hb⟩ | ⟨A, B, -, -, hb⟩ := ldcalBody_cases s <;> rw [hb]
  case inr => exact (iff_code _).2 ⟨fun _ => caldec_wf A B, nofun, nofun, nofun⟩
  all_goals exact h.of_regs_eq rfl le_rfl

/-- A new frame ends the cycle in progress, so no result computed from the old one is held. -/
theorem rdfrmBody (h : s.Coherent) (hp : s.phase ≠ .nocal) : (rdfrmBody s).Coherent := by
  have hc := Phase.one_le_code hp
  obtain hb | hb | ⟨F, -, hb⟩ := rdfrmBody_cases s <;> rw [hb]
  · exact h.of_regs_eq rfl le_rfl
  · exact h.of_regs_eq rfl hc
  · exact (iff_code _).2 ⟨fun _ => ((iff_code s).1 h).1 hc, nofun, nofun, nofun⟩

/-- The new temperature and `T_FINE` are those of the frame just read. -/
theorem cmptBody (h : s.Coherent) (hp : s.phase = .frame) : (cmptBody s).Coherent := by
  obtain ⟨hcal, -, -, -⟩ := (iff_code s).1 h
  exact (iff_code _).2 ⟨fun _ => hcal (by simp [hp, Phase.code]),
    fun _ => ⟨sval_cmptBody_tOut s, sval_cmptBody_tFine s⟩, nofun, nofun⟩

/-- The pressure is that of the `T_FINE` now held, which the command keeps. -/
theorem cmppBody (h : s.Coherent) (hp : s.phase = .tdone) : (cmppBody s).Coherent := by
  obtain ⟨hcal, htemp, -, -⟩ := (iff_code s).1 h
  exact (iff_code _).2 ⟨fun _ => hcal (by simp [hp, Phase.code]), fun _ => htemp (by simp [hp, Phase.code]),
    fun _ => uval_cmppBody_pOut s, nofun⟩

/-- The humidity is that of the `T_FINE` now held, which the command keeps. -/
theorem cmphBody (h : s.Coherent) (hp : s.phase = .pdone) : (cmphBody s).Coherent := by
  obtain ⟨hcal, htemp, hpress, -⟩ := (iff_code s).1 h
  exact (iff_code _).2 ⟨fun _ => hcal (by simp [hp, Phase.code]), fun _ => htemp (by simp [hp, Phase.code]),
    fun _ => hpress (by simp [hp, Phase.code]), fun _ => uval_cmphBody_hOut s⟩

theorem bodyOf (h : s.Coherent) {i : Instr} (hadm : admits i s.phase = true) : (bodyOf i s).Coherent := by
  cases i with
  | ldcal => exact h.ldcalBody
  | rdfrm => exact h.rdfrmBody (by simpa [admits] using hadm)
  | cmpt => exact h.cmptBody (by simpa [admits] using hadm)
  | cmpp => exact h.cmppBody (by simpa [admits] using hadm)
  | cmph => exact h.cmphBody (by simpa [admits] using hadm)

end State.Coherent

/-- Settles O42: a step leaves the registers as they are, resets to phase 0, or runs an admitted body. -/
theorem everyStepKeepsCycleCoherent : Obligations.EveryStepKeepsCycleCoherent := by
  intro s t hs h
  obtain ⟨hr, hp⟩ | ⟨-, -, -, hp⟩ | ⟨i, -, hadm, rfl⟩ := step_regs_cases h
  · exact hs.of_regs_eq hr (hp ▸ le_rfl)
  · exact coherent_of_nocal hp
  · exact State.Coherent.bodyOf (s := s.popHost) hs hadm

/-- Settles O44: without a reset a calibrated core stays calibrated. -/
theorem phaseReturnsToNocalOnlyByReset : Obligations.PhaseReturnsToNocalOnlyByReset := by
  intro s t h hp ht
  by_contra hreset
  exact (step_keeps_coef h hp (not_exists.1 hreset)).2 ht

end Sys2Proof.Machine

/-! ### The step and the transition table (spec/46_sequencer.md R230, R232) -/

namespace Sys2Proof.Machine

/-- The command byte of a word is its bits [7:0] (spec/10_state.md R33). -/
theorem cmdByte_eq_ofNat (w : Word) : cmdByte w = BitVec.ofNat 8 (w.toNat % 256) := by
  apply BitVec.eq_of_toNat_eq
  simp [cmdByte]

/-- Taking the next host action leaves the rest of them. -/
theorem popHost_eq {s : State} {a : HostAction} {rest : List HostAction} (hh : s.host = a :: rest) :
    s.popHost = { s with host := rest } := by
  rw [State.popHost, hh, List.tail_cons]

/-- Settles O15: the decoder sees the byte in bits [7:0], and taking the action off leaves the rest of the host's actions. -/
theorem stepRunsDecodedInstruction : Obligations.StepRunsDecodedInstruction := by
  intro s w rest i hw hh hd
  rw [step_decoded hw hh (cmdByte_eq_ofNat w ▸ hd), popHost_eq hh]

/-- The row of `RDFRM` does not tell the phases 1 to 5 apart. -/
theorem transitionTable_rdfrm {p : Phase} (hp : p ≠ .nocal) (ok : Bool) :
    transitionTable p .rdfrm ok = if ok then (.frame, .noError) else (.idle, .readFailed) := by
  cases p with
  | nocal => exact absurd rfl hp
  | idle | frame | tdone | pdone | hdone => cases ok <;> rfl

/-- A refused command's cell is "SE", in both columns. -/
theorem transitionTable_of_not_admits {i : Instr} {p : Phase} (h : admits i p = false) (ok : Bool) :
    transitionTable p i ok = (p, .sequenceError) := by
  cases i with
  | rdfrm =>
    obtain rfl : p = .nocal := not_not.1 (of_decide_eq_false h)
    rfl
  | ldcal | cmpt | cmpp | cmph =>
    have hp := of_decide_eq_false h
    simp [transitionTable, hp]

/-- An admitted command's cell is no "SE". -/
theorem transitionTable_ne_sequenceError {i : Instr} {p : Phase} (h : admits i p = true) (ok : Bool) :
    (transitionTable p i ok).2 ≠ .sequenceError := by
  cases i with
  | rdfrm =>
    rw [transitionTable_rdfrm (of_decide_eq_true h)]
    cases ok <;> decide
  | ldcal =>
    rw [of_decide_eq_true h]
    cases ok <;> decide
  | cmpt | cmpp | cmph =>
    rw [of_decide_eq_true h]
    nofun

/-! The admitted commands end as their cells say, whichever column the transport's answers make. -/

theorem ldcalBody_follows_table {s : State} {ok : Bool} (hp : s.phase = .nocal) (hcol : columnOf .ldcal ok s.transport) :
    ((ldcalBody s).phase, (ldcalBody s).err) = transitionTable s.phase .ldcal ok ∧ (ldcalBody s).waiting = s.waiting := by
  cases ok with
  | true =>
    obtain ⟨A, B, rest, ht, hA, hB⟩ := hcol
    rw [hp, ldcalBody_of_got ((outcome_cons _ ht).trans (outcome_bytes hA))
      ((outcome_afterRead_cons _ _ _ ht).trans (outcome_bytes hB))]
    exact ⟨rfl, rfl⟩
  | false =>
    obtain ⟨rest, ht⟩ | ⟨A, rest, ht, hA⟩ := hcol
    · rw [ldcalBody_of_first_failed (outcome_cons _ ht)]
      simp [hp, transitionTable]
    · rw [ldcalBody_of_second_failed ((outcome_cons _ ht).trans (outcome_bytes hA)) (outcome_afterRead_cons _ _ _ ht)]
      simp [hp, transitionTable]

theorem rdfrmBody_follows_table {s : State} {ok : Bool} (hp : s.phase ≠ .nocal) (hcol : columnOf .rdfrm ok s.transport) :
    ((rdfrmBody s).phase, (rdfrmBody s).err) = transitionTable s.phase .rdfrm ok ∧ (rdfrmBody s).waiting = s.waiting := by
  rw [transitionTable_rdfrm hp]
  cases ok with
  | true =>
    obtain ⟨F, rest, ht, hF⟩ := hcol
    rw [rdfrmBody_of_got ((outcome_cons _ ht).trans (outcome_bytes hF))]
    exact ⟨rfl, rfl⟩
  | false =>
    obtain ⟨rest, ht⟩ := hcol
    rw [rdfrmBody_of_failed (outcome_cons _ ht)]
    exact ⟨rfl, rfl⟩

/-- An admitted command ends as its cell says, and its reads are answered. -/
theorem bodyOf_follows_table {i : Instr} {s : State} {ok : Bool} (hadm : admits i s.phase = true)
    (hcol : columnOf i ok s.transport) :
    ((bodyOf i s).phase, (bodyOf i s).err) = transitionTable s.phase i ok ∧ (bodyOf i s).waiting = s.waiting := by
  cases i with
  | ldcal => exact ldcalBody_follows_table (by simpa [admits] using hadm) hcol
  | rdfrm => exact rdfrmBody_follows_table (by simpa [admits] using hadm) hcol
  | cmpt | cmpp | cmph =>
    have hp := of_decide_eq_true hadm
    rw [hp]
    exact ⟨rfl, rfl⟩

/-- Settles O18: the cells of refused commands are the "SE" cells, and an admitted body ends as its cell says. -/
theorem transitionTableHolds : Obligations.TransitionTableHolds := by
  refine ⟨fun i ok s hcol => ?_, fun s => ⟨rfl, rfl⟩⟩
  cases hadm : admits i s.phase with
  | true =>
    obtain ⟨hcell, hwait⟩ := bodyOf_follows_table hadm hcol
    exact ⟨_, exec_of_admits hadm, hcell, hwait, fun hse => absurd hse (transitionTable_ne_sequenceError hadm ok)⟩
  | false => exact ⟨_, exec_of_not_admits hadm, (transitionTable_of_not_admits hadm ok).symm, rfl, fun _ => rfl⟩

end Sys2Proof.Machine

/-! ### The pseudo-instructions as the host issues them (spec/46_sequencer.md R244, R245)

Each command is one step, which follows the transition table. After `RDFRM` only compensations are left: their run follows the table
too, and where none of them is admitted nothing but `ERR` changes. -/

namespace Sys2Proof.Machine

/-! What an instruction leaves of the inputs still to come. -/

/-- An instruction runs its body or is refused. -/
theorem exec_cases {i : Instr} {s t : State} (h : exec i s = .next t) : t = bodyOf i s ∨ t = s.raise .sequenceError := by
  cases hadm : admits i s.phase with
  | true => exact .inl (Host.Outcome.next.inj (h.symm.trans (exec_of_admits hadm)))
  | false => exact .inr (Host.Outcome.next.inj (h.symm.trans (exec_of_not_admits hadm)))

theorem bodyOf_host (i : Instr) (s : State) : (bodyOf i s).host = s.host := by
  cases i with
  | ldcal => obtain ⟨s₁, rfl | rfl, h | h⟩ | ⟨A, B, -, -, h⟩ := ldcalBody_cases s <;> rw [bodyOf, h] <;> rfl
  | rdfrm => obtain h | h | ⟨F, -, h⟩ := rdfrmBody_cases s <;> rw [bodyOf, h] <;> rfl
  | cmpt | cmpp | cmph => rfl

theorem exec_host {i : Instr} {s t : State} (h : exec i s = .next t) : t.host = s.host := by
  obtain rfl | rfl := exec_cases h
  · exact bodyOf_host i s
  · rfl

/-- An admitted `RDFRM` takes one answer. -/
theorem exec_rdfrm_transport {s t : State} (h : exec .rdfrm s = .next t) (hp : s.phase ≠ .nocal) :
    t.transport = s.transport.tail := by
  rw [exec_rdfrm_of_ne_nocal hp] at h
  cases h
  obtain h | h | ⟨F, -, h⟩ := rdfrmBody_cases s <;> rw [h] <;> rfl

/-- A compensation takes no answer. -/
theorem transport_of_compensation {i : Instr} {s t : State} (hi : i = .cmpt ∨ i = .cmpp ∨ i = .cmph)
    (h : exec i s = .next t) : t.transport = s.transport := by
  obtain rfl | rfl := exec_cases h
  · rcases hi with rfl | rfl | rfl <;> rfl
  · rfl

/-- Issuing an instruction's byte runs the instruction. -/
theorem step_issued {s : State} {i : Instr} {q : List Instr} {rest : List HostAction} (hw : s.waiting = false)
    (hh : s.host = hostProgram (encodeProgram (i :: q)) ++ rest) :
    step s = exec i { s with host := hostProgram (encodeProgram q) ++ rest } := by
  have hbyte : cmdByte (cmdWord (encode i)) = encode i := by cases i <;> rfl
  rw [step_decoded hw hh (hbyte ▸ decode_encode i), popHost_eq hh]
  rfl

/-- Issuing an instruction that is not admitted changes nothing but `ERR`. -/
theorem step_not_admitted {s : State} {i : Instr} {q : List Instr} {rest : List HostAction} (hw : s.waiting = false)
    (hh : s.host = hostProgram (encodeProgram (i :: q)) ++ rest) (hadm : admits i s.phase = false) :
    step s = .next { s with host := hostProgram (encodeProgram q) ++ rest, err := .sequenceError } :=
  (step_issued hw hh).trans (exec_of_not_admits hadm)

/-- A step that issues an instruction follows the transition table and takes its byte off the host's actions. -/
theorem step_issued_follows_table {s : State} {i : Instr} {ok : Bool} {q : List Instr} {rest : List HostAction}
    (hw : s.waiting = false) (hh : s.host = hostProgram (encodeProgram (i :: q)) ++ rest)
    (hcol : columnOf i ok s.transport) :
    ∃ t, step s = .next t ∧ exec i { s with host := hostProgram (encodeProgram q) ++ rest } = .next t ∧
      t.waiting = false ∧ t.host = hostProgram (encodeProgram q) ++ rest ∧
      (t.phase, t.err) = transitionTable s.phase i ok := by
  obtain ⟨t, hexec, hcell, hwait, -⟩ :=
    transitionTableHolds.1 i ok { s with host := hostProgram (encodeProgram q) ++ rest } hcol
  exact ⟨t, (step_issued hw hh).trans hexec, hexec, hwait.trans hw, exec_host hexec, hcell⟩

/-- `PHASE` and `ERR` after some compensations, by the transition table, where a compensation has one column. -/
def tableRun (p : List Instr) (pe : Phase × ErrCode) : Phase × ErrCode :=
  p.foldl (fun pe i => transitionTable pe.1 i true) pe

/-- A run of compensations follows the transition table and takes no answer. -/
theorem run_compensations {p : List Instr} {rest : List HostAction} (hp : ∀ i ∈ p, i = .cmpt ∨ i = .cmpp ∨ i = .cmph)
    {s : State} (hw : s.waiting = false) (hh : s.host = hostProgram (encodeProgram p) ++ rest) :
    ∃ t, s.run p.length = .next t ∧ (t.phase, t.err) = tableRun p (s.phase, s.err) ∧ t.host = rest ∧
      t.transport = s.transport := by
  induction p generalizing s with
  | nil => exact ⟨s, run_zero s, rfl, hh, rfl⟩
  | cons i q ih =>
    obtain ⟨hi, hq⟩ := List.forall_mem_cons.1 hp
    have hcol : columnOf i true s.transport := by rcases hi with rfl | rfl | rfl <;> trivial
    obtain ⟨t, hstep, hexec, hwait, hhost, hcell⟩ := step_issued_follows_table hw hh hcol
    obtain ⟨u, hrun, hu, hrest, htr⟩ := ih hq hwait hhost
    have hkeep := transport_of_compensation hi hexec
    refine ⟨u, (run_next q.length hstep).trans hrun, ?_, hrest, htr.trans hkeep⟩
    rw [hu, hcell]
    rfl

/-- A run of commands none of which is admitted changes nothing but `ERR`. -/
theorem run_not_admitted {i : Instr} {q : List Instr} {rest : List HostAction} {s : State} (hw : s.waiting = false)
    (hh : s.host = hostProgram (encodeProgram (i :: q)) ++ rest) (hadm : ∀ j ∈ i :: q, admits j s.phase = false) :
    s.run (i :: q).length = .next { s with host := rest, err := .sequenceError } := by
  induction q generalizing i s with
  | nil => exact run_next 0 (step_not_admitted hw hh (hadm i List.mem_cons_self))
  | cons j q ih =>
    have hstep := step_not_admitted hw hh (hadm i List.mem_cons_self)
    have hrun := ih (s := { s with host := _, err := .sequenceError }) hw rfl fun k hk => hadm k (List.mem_cons_of_mem i hk)
    exact (run_next _ hstep).trans hrun

/-- `RDFRM` and then compensations, in a calibrated core: the run ends as the table says from the cell of `RDFRM`. -/
theorem run_rdfrm_compensations {s : State} {p : List Instr} {ok : Bool} {rest : List HostAction}
    (hp : ∀ i ∈ p, i = .cmpt ∨ i = .cmpp ∨ i = .cmph) (hw : s.waiting = false)
    (hh : s.host = hostProgram (encodeProgram (.rdfrm :: p)) ++ rest) (hcal : s.phase ≠ .nocal)
    (hcol : columnOf .rdfrm ok s.transport) :
    ∃ t, s.run (p.length + 1) = .next t ∧ (t.phase, t.err) = tableRun p (transitionTable s.phase .rdfrm ok) ∧
      t.host = rest ∧ t.transport = s.transport.tail := by
  obtain ⟨t, hstep, hexec, hwait, hhost, hcell⟩ := step_issued_follows_table hw hh hcol
  obtain ⟨u, hrun, hu, hrest, htr⟩ := run_compensations hp hwait hhost
  have htake := exec_rdfrm_transport hexec hcal
  exact ⟨u, (run_next _ hstep).trans hrun, hcell ▸ hu, hrest, htr.trans htake⟩

/-- `CYCLE` in a calibrated core, in either column of its one read. -/
theorem run_cycle {s : State} {ok : Bool} {rest : List HostAction} {a : Answer} {tr : List Answer} (hw : s.waiting = false)
    (hh : s.host = hostProgram (encodeProgram Pseudo.cycle.expand) ++ rest) (hcal : s.phase ≠ .nocal)
    (ht : s.transport = a :: tr) (hcol : columnOf .rdfrm ok s.transport) :
    ∃ t, s.run 4 = .next t ∧ t.phase = (if ok then .hdone else .idle) ∧
      t.err = (if ok then .noError else .sequenceError) ∧ t.host = rest ∧ t.transport = tr := by
  obtain ⟨t, hrun, hcell, hrest, htr⟩ :=
    run_rdfrm_compensations (p := [.cmpt, .cmpp, .cmph]) (by simp) hw hh hcal hcol
  rw [transitionTable_rdfrm hcal] at hcell
  rw [ht, List.tail_cons] at htr
  refine ⟨t, hrun, ?_, ?_, hrest, htr⟩
  · cases ok <;> exact congrArg Prod.fst hcell
  · cases ok <;> exact congrArg Prod.snd hcell

/-- Settles O48: `RDFRM` ends in phase 2 or 1, from where the table gives the rest; in phase 0 no command of `CYCLE` is admitted. -/
theorem cycleAndTempExpand : Obligations.CycleAndTempExpand := by
  intro s F rest tr hw
  refine ⟨fun hh => ⟨fun hcal ht hF => run_cycle (ok := true) hw hh hcal ht ⟨F, tr, ht, hF⟩,
    fun hcal ht => ⟨?_, run_cycle (ok := false) hw hh hcal ht ⟨tr, ht⟩⟩,
    fun hp => run_not_admitted hw hh (by simp [hp, admits])⟩, fun hh hcal ht hF => ?_⟩
  · obtain ⟨t, hstep, -, -, -, hcell⟩ := step_issued_follows_table (ok := false) hw hh ⟨tr, ht⟩
    rw [transitionTable_rdfrm hcal] at hcell
    exact ⟨t, run_next 0 hstep, congrArg Prod.fst hcell, congrArg Prod.snd hcell⟩
  · obtain ⟨t, hrun, hcell, hrest, -⟩ :=
      run_rdfrm_compensations (p := [.cmpt]) (ok := true) (by simp) hw hh hcal ⟨F, tr, ht, hF⟩
    rw [transitionTable_rdfrm hcal] at hcell
    exact ⟨t, hrun, congrArg Prod.fst hcell, congrArg Prod.snd hcell, hrest⟩

end Sys2Proof.Machine

/-! PROOFS of the family `60_exceptions.md`: the two refusals, the failed read, the two outcomes that are no fault, and what every
fault leaves. -/

/-! ### Refused commands, and the commands' totality (spec/60_exceptions.md R251, R252, R262, R274) -/

namespace Sys2Proof.Machine

/-- The low bytes that are no command, as R108 lists them: 0x00 and 0x06..0xFF. -/
theorem legalOpcode_cmdByte_eq_false_iff (w : Word) :
    legalOpcode (cmdByte w) = false ↔ w.toNat % 256 = 0 ∨ 6 ≤ w.toNat % 256 := by
  have hlow : (cmdByte w).toNat = w.toNat % 256 := BitVec.toNat_setWidth 8 w
  rw [legalOpcode, hlow, Bool.and_eq_false_iff, decide_eq_false_iff_not, decide_eq_false_iff_not]
  omega

/-- Settles O16: the low byte is not legal, so the step raises `IllegalCommand` and does nothing else. -/
theorem illegalCommandChangesErrOnly : Obligations.IllegalCommandChangesErrOnly := by
  refine ⟨fun s w rest hw hh hlow => ?_, rfl⟩
  rw [step_illegal hw hh ((legalOpcode_cmdByte_eq_false_iff w).2 hlow), popHost_eq hh]
  rfl

/-- Settles O17: in each of these phases `admits` is false. -/
theorem sequenceErrorChangesErrOnly : Obligations.SequenceErrorChangesErrOnly := by
  refine ⟨fun s => ⟨fun hp => ?_, fun hp => ?_, fun hp => ?_, fun hp => ?_, fun hp => ?_⟩, rfl⟩
  · exact exec_of_not_admits (decide_eq_false hp)
  · exact exec_of_not_admits (decide_eq_false (not_not.2 hp))
  · exact exec_of_not_admits (decide_eq_false hp)
  · exact exec_of_not_admits (decide_eq_false hp)
  · exact exec_of_not_admits (decide_eq_false hp)

/-- Settles O19: every meaning is a body behind its admission test, and both ways of the test answer a next state. -/
theorem everyCommandAnswersNext : Obligations.EveryCommandAnswersNext :=
  fun i s => ⟨_, exec_eq_require i s⟩

/-- Settles O20: the case of the step with nothing to do. -/
theorem idleMachineHoldsState : Obligations.IdleMachineHoldsState := fun _ => step_idle

end Sys2Proof.Machine

/-! ### The outcomes that are no fault: the pressure sentinel and the humidity clamp (spec/60_exceptions.md R254, R255) -/

namespace Sys2Proof.Machine

/-- A zero divisor makes `CMPP` write the sentinel (spec/44_pressure.md R194). -/
theorem cmppBody_of_zero_divisor {s : State}
    (h : pressV1c (uval s.coef.digP1) (sval s.coef.digP2) (sval s.coef.digP3) (sval s.tFine) = 0) :
    cmppBody s = { s with pOut := 0, phase := .pdone, err := .noError } := by
  have hzero : s.pressOfRegs = 0 := by rw [State.pressOfRegs, compP_eq_ite, if_pos h]
  rw [cmppBody, hzero]
  rfl

/-- `dig_P1` is a factor of the divisor's numerator, so with it the divisor is zero. -/
theorem pressV1c_zero (P2 P3 tf : Int) : pressV1c 0 P2 P3 tf = 0 := by
  rw [pressV1c_eq_div, mul_zero, Int.zero_ediv]

/-- Settles O28: `CMPP` writes the sentinel and ends in phase 4, where `CMPH` is admitted. -/
theorem pressureSentinelIsZero : Obligations.PressureSentinelIsZero := by
  refine ⟨fun s hp hdiv => ⟨?_, ?_⟩, pressV1c_zero⟩
  · rw [exec_cmpp_of_tdone hp, cmppBody_of_zero_divisor hdiv]
  · exact ⟨_, exec_cmph_of_pdone rfl, rfl, rfl⟩

/-! The saturation below, above and within the range (spec/45_humidity.md R213). -/

theorem humSaturate_of_neg {x : Int} (h : x < 0) : humSaturate x = 0 := by
  rw [humSaturate_eq_div, min_eq_left (by omega), max_eq_left h.le, Int.zero_ediv]

theorem humSaturate_of_gt {x : Int} (h : 419430400 < x) : humSaturate x = 102400 := by
  rw [humSaturate_eq_div, min_eq_right h.le]
  rfl

theorem humSaturate_of_mem {x : Int} (h₀ : 0 ≤ x) (h₁ : x ≤ 419430400) : humSaturate x = x / 4096 := by
  rw [humSaturate_eq_div, min_eq_left h₁, max_eq_right h₀]

/-- Settles O31: `CMPH` completes as always, and `H_OUT` is the accumulator saturated, in each of its three ranges. -/
theorem humidityClampIsNoFault : Obligations.HumidityClampIsNoFault := by
  intro s hp
  refine ⟨cmphBody s, exec_cmph_of_pdone hp, cmphBody_frame s, ?_⟩
  intro x2
  have hsat : uval (cmphBody s).hOut = humSaturate x2 := uval_cmphBody_hOut s
  refine ⟨fun h => ?_, fun h => ?_, fun h₀ h₁ => ?_⟩
  · exact Int.ofNat_inj.1 (hsat.trans (humSaturate_of_neg h))
  · exact Int.ofNat_inj.1 (hsat.trans (humSaturate_of_gt h))
  · exact hsat.trans (humSaturate_of_mem h₀ h₁)

end Sys2Proof.Machine

/-! ### What every fault leaves (spec/60_exceptions.md R250, R263)

`exec_fault_cases` says once how an instruction can end with `ERR` other than 0: refused, or by a failed read of `LDCAL` or `RDFRM`. -/

namespace Sys2Proof.Machine

/-- In phase 0 only `PHASE` and `ERR` hold values. -/
theorem view_of_nocal {s : State} (hp : s.phase = .nocal) :
    s.view = ⟨.nocal, s.err, none, none, none, none, none, none, none, none⟩ := by
  simp [State.view, State.calValid, State.rawValid, State.tValid, State.pValid, State.hValid, hp, Phase.code]

/-- Raising a fault changes `ERR` in the view and nothing else (R263). -/
theorem raise_view (s : State) (e : ErrCode) : (s.raise e).view = { s.view with err := e } := rfl

/-- An answered `LDCAL` that does not complete has changed nothing but `ERR`. -/
theorem ldcalBody_view_of_err {s : State} (hw : (ldcalBody s).waiting = false) (he : (ldcalBody s).err ≠ .noError) :
    (ldcalBody s).view = { s.view with err := .readFailed } := by
  obtain ⟨s₁, hs₁, hb | hb⟩ | ⟨A, B, -, -, hb⟩ := ldcalBody_cases s <;> rw [hb] at hw he ⊢
  · cases hw
  · obtain rfl | rfl := hs₁ <;> rfl
  · exact absurd rfl he

/-- An answered `RDFRM` that does not complete has ended the cycle in progress. -/
theorem rdfrmBody_view_of_err {s : State} (hw : (rdfrmBody s).waiting = false) (he : (rdfrmBody s).err ≠ .noError) :
    (rdfrmBody s).view = ⟨.idle, .readFailed, some s.coef, none, none, none, none, none, none, none⟩ := by
  obtain hb | hb | ⟨F, -, hb⟩ := rdfrmBody_cases s <;> rw [hb] at hw he ⊢
  · cases hw
  · exact endCycle_raise_view _ _
  · exact absurd rfl he

/-- How an instruction whose reads are answered can end with `ERR` other than 0, and the view it leaves. -/
theorem exec_fault_cases {i : Instr} {s t : State} (h : exec i s = .next t) (hw : t.waiting = false) (he : t.err ≠ .noError) :
    t.view = { s.view with err := .sequenceError } ∨
    (i = .ldcal ∧ s.phase = .nocal ∧ t.view = { s.view with err := .readFailed }) ∨
    (i = .rdfrm ∧ s.phase ≠ .nocal ∧ t.view = ⟨.idle, .readFailed, some s.coef, none, none, none, none, none, none, none⟩) := by
  cases hadm : admits i s.phase with
  | false =>
    rw [exec_of_not_admits hadm] at h
    cases h
    exact .inl (raise_view s _)
  | true =>
    rw [exec_of_admits hadm] at h
    cases h
    cases i with
    | ldcal => exact .inr (.inl ⟨rfl, of_decide_eq_true hadm, ldcalBody_view_of_err hw he⟩)
    | rdfrm => exact .inr (.inr ⟨rfl, of_decide_eq_true hadm, rdfrmBody_view_of_err hw he⟩)
    | cmpt | cmpp | cmph => exact absurd rfl he

/-- An instruction that ends with `ReadFailed` is `LDCAL` in phase 0 or `RDFRM` in a calibrated core. -/
theorem exec_readFailed_cases {i : Instr} {s t : State} (h : exec i s = .next t) (hw : t.waiting = false)
    (he : t.err = .readFailed) :
    (i = .ldcal ∧ t.view = ⟨.nocal, .readFailed, none, none, none, none, none, none, none, none⟩) ∨
    (i = .rdfrm ∧ t.view = ⟨.idle, .readFailed, some s.coef, none, none, none, none, none, none, none⟩) := by
  obtain hv | ⟨hi, hp, hv⟩ | ⟨hi, -, hv⟩ := exec_fault_cases h hw (by simp [he])
  · have herr : t.err = .sequenceError := congrArg View.err hv
    simp [he] at herr
  · rw [view_of_nocal hp] at hv
    exact .inl ⟨hi, hv⟩
  · exact .inr ⟨hi, hv⟩

/-- Settles O32: the two ways to end with `ReadFailed`, told apart by the instruction. -/
theorem readFailedEffects : Obligations.ReadFailedEffects := by
  refine ⟨fun i s t h hw he => ?_, fun s t h hw he => ?_, fun s t h hw he => ?_, rfl⟩
  · exact (exec_readFailed_cases h hw he).imp And.left And.left
  · obtain ⟨-, hv⟩ | ⟨hi, -⟩ := exec_readFailed_cases h hw he
    · exact hv
    · cases hi
  · obtain ⟨hi, -⟩ | ⟨-, hv⟩ := exec_readFailed_cases h hw he
    · cases hi
    · exact hv

/-- Settles O33: a byte that is no command and a refused or failed command leave the view but for `ERR`, and a failed `RDFRM`, which
is admitted only in a calibrated core, keeps the coefficients. -/
theorem faultsArePrecise : Obligations.FaultsArePrecise := by
  intro s t w rest hw hh h htw he
  obtain ⟨-, i, hd, hop⟩ | ⟨hl, -⟩ := decode_cases (cmdByte w)
  · rw [step_decoded hw hh hd] at h
    obtain hv | ⟨-, -, hv⟩ | ⟨rfl, hp, hv⟩ := exec_fault_cases h htw he
    · have herr : t.err = .sequenceError := congrArg View.err hv
      exact .inl (herr ▸ hv)
    · have herr : t.err = .readFailed := congrArg View.err hv
      exact .inl (herr ▸ hv)
    · have hcoef : s.view.coef = some s.coef := (view_coef_eq_some s _).2 ⟨Phase.one_le_code hp, rfl⟩
      exact .inr ⟨hop.symm, congrArg View.err hv, hcoef ▸ hv⟩
  · rw [step_illegal hw hh hl] at h
    cases h
    exact .inl (raise_view s.popHost _)

end Sys2Proof.Machine

/-! ### `ERR` is not sticky (spec/60_exceptions.md R264)

No operation looks at `ERR`, and each but a waiting one writes it. -/

namespace Sys2Proof.Machine

theorem ldcalBody_raise {s : State} (hw : (ldcalBody s).waiting = false) (e : ErrCode) : ldcalBody (s.raise e) = ldcalBody s := by
  cases hA : (s.nextAnswer blockALen).outcome blockALen with
  | silent =>
    rw [ldcalBody_of_first_silent hA] at hw
    cases hw
  | failed =>
    rw [ldcalBody_of_first_failed hA, ldcalBody_of_first_failed (s := s.raise e) hA]
    rfl
  | got A =>
    cases hB : ((s.afterRead blockAAddr blockALen).nextAnswer blockBLen).outcome blockBLen with
    | silent =>
      rw [ldcalBody_of_second_silent hA hB] at hw
      cases hw
    | failed =>
      rw [ldcalBody_of_second_failed hA hB, ldcalBody_of_second_failed (s := s.raise e) hA hB]
      rfl
    | got B =>
      rw [ldcalBody_of_got hA hB, ldcalBody_of_got (s := s.raise e) hA hB]
      rfl

theorem rdfrmBody_raise {s : State} (hw : (rdfrmBody s).waiting = false) (e : ErrCode) : rdfrmBody (s.raise e) = rdfrmBody s := by
  cases hF : (s.nextAnswer frameLen).outcome frameLen with
  | silent =>
    rw [rdfrmBody_of_silent hF] at hw
    cases hw
  | failed =>
    rw [rdfrmBody_of_failed hF, rdfrmBody_of_failed (s := s.raise e) hF]
    rfl
  | got F =>
    rw [rdfrmBody_of_got hF, rdfrmBody_of_got (s := s.raise e) hF]
    rfl

/-- A body whose reads are answered overwrites whatever `ERR` was. -/
theorem bodyOf_raise {i : Instr} {s : State} (hw : (bodyOf i s).waiting = false) (e : ErrCode) :
    bodyOf i (s.raise e) = bodyOf i s := by
  cases i with
  | ldcal => exact ldcalBody_raise hw e
  | rdfrm => exact rdfrmBody_raise hw e
  | cmpt | cmpp | cmph => rfl

/-- So does an instruction, for its admission does not look at `ERR` either. -/
theorem exec_raise {i : Instr} {s t : State} (h : exec i s = .next t) (hw : t.waiting = false) (e : ErrCode) :
    exec i (s.raise e) = .next t := by
  cases hadm : admits i s.phase with
  | true =>
    rw [exec_of_admits hadm] at h
    cases h
    rw [exec_of_admits (s := s.raise e) hadm, bodyOf_raise hw e]
  | false =>
    rw [exec_of_not_admits hadm] at h
    cases h
    exact exec_of_not_admits (s := s.raise e) hadm

/-- Settles O34: the byte is taken alike from both states; an instruction overwrites `ERR`, and so does `IllegalCommand`. -/
theorem errIsNotSticky : Obligations.ErrIsNotSticky := by
  intro s t e w rest hw hh h htw
  obtain ⟨-, i, hd, -⟩ | ⟨hl, -⟩ := decode_cases (cmdByte w)
  · rw [step_decoded hw hh hd] at h
    rw [step_decoded (s := { s with err := e }) hw hh hd]
    exact exec_raise h htw e
  · rw [step_illegal hw hh hl] at h
    cases h
    exact step_illegal (s := { s with err := e }) hw hh hl

end Sys2Proof.Machine

/-! PROOFS of the family `70_reset_and_hazards.md`: the reset signal, and the host's sequence from phase 0 to a whole reading. -/

/-! ### The reset signal (spec/70_reset_and_hazards.md R280) -/

namespace Sys2Proof.Machine

/-- Settles O36: the step is the reset whether or not an operation waits, and it leaves the view of the state right after reset. -/
theorem resetSignalEffect : Obligations.ResetSignalEffect := by
  intro s rest hh
  obtain ⟨hview, hstatus⟩ := resetState
  exact ⟨_, step_reset hh, (resetCore_view _).trans hview, hstatus, popHost_resetCore_env hh⟩

end Sys2Proof.Machine

/-! ### From phase 0 to a whole reading (spec/70_reset_and_hazards.md R286, spec/46_sequencer.md R244)

The five steps are followed only for the phases and for what the core holds as inputs: the coefficients and the raw values. The results
need no computation along the run: phase 0 is coherent and every step keeps that, and a coherent core in phase 5 holds the three results
its formulas give for these inputs. -/

namespace Sys2Proof.Machine

/-- A refusal ends the run. -/
theorem run_refused {s : State} {r : Refusal} (n : Nat) (h : step s = .refused r) : s.run (n + 1) = .refused r := by
  simp only [State.run, Host.Core.run, Sys2Proof.core, h]

/-- A run that answers a next state began with a step that does. -/
theorem run_succ_eq_next {n : Nat} {s t : State} (h : s.run (n + 1) = .next t) :
    ∃ u, step s = .next u ∧ u.run n = .next t := by
  cases hstep : step s with
  | next u => exact ⟨u, rfl, (run_next n hstep).symm.trans h⟩
  | fault f => cases (run_fault n hstep).symm.trans h
  | refused r => cases (run_refused n hstep).symm.trans h

/-- A whole run keeps the reading cycle coherent (spec/46_sequencer.md R234). -/
theorem run_coherent {n : Nat} {s t : State} (hs : s.Coherent) (h : s.run n = .next t) : t.Coherent := by
  induction n generalizing s with
  | zero =>
    cases h
    exact hs
  | succ n ih =>
    obtain ⟨u, hstep, hrun⟩ := run_succ_eq_next h
    exact ih (everyStepKeepsCycleCoherent s u hs hstep) hrun

/-- A run whose next command is an instruction goes on from what that instruction leaves. -/
theorem run_issued {s t : State} {i : Instr} {q : List Instr} {rest : List HostAction} {n : Nat} (hw : s.waiting = false)
    (hh : s.host = hostProgram (encodeProgram (i :: q)) ++ rest)
    (h : exec i { s with host := hostProgram (encodeProgram q) ++ rest } = .next t) : s.run (n + 1) = t.run n :=
  run_next n ((step_issued hw hh).trans h)

/-- What the three formulas read and no compensation writes: the coefficients and the raw values. -/
def State.inputs (s : State) : Coefs × BitVec 20 × BitVec 20 × BitVec 16 := (s.coef, s.adcP, s.adcT, s.adcH)

theorem inputs_of_compensation {i : Instr} {s t : State} (hi : i = .cmpt ∨ i = .cmpp ∨ i = .cmph)
    (h : exec i s = .next t) : t.inputs = s.inputs := by
  obtain rfl | rfl := exec_cases h
  · rcases hi with rfl | rfl | rfl <;> rfl
  · rfl

/-- A run of compensations keeps the inputs of the formulas. -/
theorem run_compensations_inputs {p : List Instr} {rest : List HostAction}
    (hp : ∀ i ∈ p, i = .cmpt ∨ i = .cmpp ∨ i = .cmph) {s t : State} (hw : s.waiting = false)
    (hh : s.host = hostProgram (encodeProgram p) ++ rest) (hrun : s.run p.length = .next t) : t.inputs = s.inputs := by
  induction p generalizing s with
  | nil =>
    cases hrun
    rfl
  | cons i q ih =>
    obtain ⟨hi, hq⟩ := List.forall_mem_cons.1 hp
    have hcol : columnOf i true s.transport := by rcases hi with rfl | rfl | rfl <;> trivial
    obtain ⟨u, hstep, hexec, hwait, hhost, -⟩ := step_issued_follows_table hw hh hcol
    have hkeep := inputs_of_compensation hi hexec
    exact (ih hq hwait hhost ((run_next _ hstep).symm.trans hrun)).trans hkeep

/-- The three compensations in their order, from a decoded frame: each is admitted, and the reading is complete. -/
theorem run_compensations_of_frame {s : State} {rest : List HostAction} (hw : s.waiting = false) (hp : s.phase = .frame)
    (hh : s.host = hostProgram (encodeProgram [.cmpt, .cmpp, .cmph]) ++ rest) :
    ∃ t, s.run 3 = .next t ∧ (t.phase, t.err) = (.hdone, .noError) ∧ t.host = rest ∧ t.transport = s.transport ∧
      t.inputs = s.inputs := by
  have hcomp : ∀ i ∈ [Instr.cmpt, .cmpp, .cmph], i = .cmpt ∨ i = .cmpp ∨ i = .cmph := by simp
  obtain ⟨t, hrun, hcell, hrest, htr⟩ := run_compensations hcomp hw hh
  rw [hp] at hcell
  exact ⟨t, hrun, hcell, hrest, htr, run_compensations_inputs hcomp hw hh hrun⟩

/-- Start-up and one cycle with the three reads answered: the reading is complete, for the coefficients and the raw values of the
sensor's bytes. -/
theorem run_startup_cycle {s : State} {A B F : List Byte} {rest : List HostAction} {tr : List Answer} (hw : s.waiting = false)
    (hp : s.phase = .nocal) (hA : A.length = 26) (hB : B.length = 8) (hF : F.length = 8)
    (hh : s.host = hostProgram (encodeProgram (Pseudo.startup.expand ++ Pseudo.cycle.expand)) ++ rest)
    (ht : s.transport = .bytes A :: .bytes B :: .bytes F :: tr) :
    ∃ t, s.run 5 = .next t ∧ (t.phase, t.err) = (.hdone, .noError) ∧ t.host = rest ∧ t.transport = tr ∧
      t.inputs = (caldec A B, rawP F, rawT F, rawH F) := by
  have hrun : s.run 5 = State.run 3 _ := .trans (run_issued hw hh (exec_ldcal_of_blocks hp ht hA hB))
    (run_issued hw rfl (exec_rdfrm_of_frame nofun rfl hF))
  rw [hrun]
  exact run_compensations_of_frame hw rfl rfl

/-- Settles O49: the run reaches phase 5 with the inputs decoded from the sensor's bytes, coherent as phase 0 was, so each result is its
formula's for these inputs, with the `T_FINE` the first formula left. -/
theorem startupAndCycleCompleteReading : Obligations.StartupAndCycleCompleteReading := by
  intro s A B F rest tr hw hp hA hB hF hh ht
  obtain ⟨t, hrun, hcell, hrest, htr, hin⟩ := run_startup_cycle hw hp hA hB hF hh ht
  obtain ⟨hdone, herr⟩ := Prod.mk.inj hcell
  simp only [State.inputs, Prod.mk.injEq] at hin
  obtain ⟨hcoef, hP, hT, hH⟩ := hin
  obtain ⟨-, htemp, hpress, hhum⟩ := (State.Coherent.iff_code t).1 (run_coherent (coherent_of_nocal hp) hrun)
  have hcode : t.phase.code = 5 := congrArg Phase.code hdone
  have hstatus : t.status = 0x05#32 := by rw [State.status, hcode, herr]; rfl
  obtain ⟨hOut, hFine⟩ := htemp (by omega)
  rw [State.tempOfRegs, hcoef, hT] at hOut hFine
  replace hpress := hpress (by omega)
  rw [State.pressOfRegs, hcoef, hP, hFine] at hpress
  replace hhum := hhum hcode
  rw [State.humOfRegs, hcoef, hH, hFine] at hhum
  exact ⟨t, hrun, hstatus, hcoef, hrest, htr, hOut, hFine, hpress, hhum⟩

end Sys2Proof.Machine
